-- ==== Sys2Proof/Word.lean ====
section
/-! DEFINITION. The word types of LED_Matrix SCE and the constant ONE of its number scale. -/

namespace Sys2Proof

/-- A pixel of FB (R50), a byte of TX (R52), an 8-bit field. -/
abbrev Byte := BitVec 8

/-- A 16-bit register or gamma table entry (R40 to R43, R48). -/
abbrev Half := BitVec 16

/-- A word of the register port (R32) and a host command word (R81). -/
abbrev Word := BitVec 32

/-- One cell register CUR[r][c] or SM[r][c]: 18 bits, two's complement (R20). -/
abbrev CellWord := BitVec 18

/-- `ONE` = 65280 = 255 × 256, the q-value of the real number 1.0 (R8, R10). -/
abbrev qOne : Int := 65280

end Sys2Proof
end

