-- ==== Sys2Proof/Config.lean ====
section
/-! DEFINITION. What an instance of the block fixes (its parameters, R7) and the free values: what the spec leaves
unspecified for every instance (R25, R50, 93_implementation_defined.md U5 and U6). -/

namespace Sys2Proof

/-- The parameters of an instance (R7). They are data of the state that no operation changes, so that a statement
about every state is a statement about every instance. -/
structure Params where
  /-- Frame height `H` in pixels. -/
  height : Nat
  /-- Frame width `W` in pixels. -/
  width : Nat
  /-- `NMAX`, the largest row count of the cell arrays. -/
  nmax : Nat
  /-- `MMAX`, the largest column count of the cell arrays. -/
  mmax : Nat
  /-- `GAP_RESET`, the reset value of GAP. -/
  gapReset : Half
deriving DecidableEq, Repr

/-- The constraints of R7. -/
def Params.wf (p : Params) : Bool :=
  decide (1 ≤ p.height ∧ p.height ≤ 65535 ∧ 1 ≤ p.width ∧ p.width ≤ 65535 ∧
    5 ≤ p.nmax ∧ p.nmax ≤ 255 ∧ 5 ≤ p.mmax ∧ p.mmax ≤ 255)

/-- DESIGN CHOICE, unsafe (log 1): the instance that `State.reset` stands for, the one of vector V53
(H = W = 4, NMAX = MMAX = 8, GAP_RESET = 0). -/
def Config.params : Params := { height := 4, width := 4, nmax := 8, mmax := 8, gapReset := 0 }

/-- Free value (log 7): CUR[r][c] after the `k`-th draw, made by TAU.STOP (R25, R168, U5). -/
opaque Config.curAfterStop : Nat → Nat → Nat → CellWord

/-- Free value (log 7): SM[r][c] after the `k`-th draw, made by TAU.STOP (R25, R168, U5). -/
opaque Config.smAfterStop : Nat → Nat → Nat → CellWord

/-- Free value (log 8): the byte of FB at an address that nothing has written since the `k`-th draw, made by a
reset (R50, R215, U6). -/
opaque Config.fbUnwritten : Nat → Nat → Byte

end Sys2Proof
end

