-- ==== Sys2Proof/Syntax.lean ====
section
/-! DEFINITION. The operations of the block (R80): one constructor per row of spec/opcode_table.json. -/

namespace Sys2Proof

/-- What a SAMPLE operation gives for one cell (R100): the word `skip`, or a q-value. -/
inductive Target where
  | skip
  | value (q : Int)
deriving DecidableEq, Repr

/-- The 18 operations (R90). Register numbers, register words and frame addresses are 32 bits wide (R82);
cell indices and emitted values are bytes (R44, R144); q-values are integers (R10). -/
inductive Instr where
  /-- START, format C, R161. -/
  | start
  /-- TICK, format C, R163. -/
  | tick
  /-- CLOSE, format C, R162. -/
  | close
  /-- RDREG(n), format B, R157. -/
  | rdreg (n : Word)
  /-- WRREG(n, v), format B, R158. -/
  | wrreg (n v : Word)
  /-- WRFB(a, b), format B, R160. -/
  | wrfb (a : Word) (b : Byte)
  /-- RESET, format P, R215. -/
  | reset
  /-- LATCHCFG, format M, R165. -/
  | latchcfg
  /-- SAMPLE.ABS, format M, R105. -/
  | sampleAbs
  /-- SAMPLE.DELTA, format M, R106. -/
  | sampleDelta
  /-- SAMPLE.SINGLE, format M, R107. -/
  | sampleSingle
  /-- CTRL(r, c, t), format M, R129. -/
  | ctrl (r c : Byte) (t : Target)
  /-- ENC.ABS(s), format M, R141. -/
  | encAbs (q : Int)
  /-- ENC.DELTA(s), format M, R142. -/
  | encDelta (q : Int)
  /-- EMIT(r, c, v), format M, R144. -/
  | emit (r c v : Byte)
  /-- TAU.CLOSE, format T, R167. -/
  | tauClose
  /-- TAU.STOP, format T, R168. -/
  | tauStop
  /-- LEDCMD, format L, the line `<row>,<col>,<value>\n`, R148. -/
  | ledcmd (row col value : Byte)
deriving DecidableEq, Repr

/-- The operations that are events of the block (R155): what a host, a frame source, the reset pin or the block
itself brings about between ticks. The micro-operations of format M run inside a full tick or a START, and a
LEDCMD line is produced by the block, not received by it (R80). -/
def Instr.isEvent : Instr → Bool
  | .start => true
  | .tick => true
  | .close => true
  | .rdreg _ => true
  | .wrreg _ _ => true
  | .wrfb _ _ => true
  | .reset => true
  | .latchcfg => false
  | .sampleAbs => false
  | .sampleDelta => false
  | .sampleSingle => false
  | .ctrl _ _ _ => false
  | .encAbs _ => false
  | .encDelta _ => false
  | .emit _ _ _ => false
  | .tauClose => true
  | .tauStop => true
  | .ledcmd _ _ _ => false

end Sys2Proof
end

