-- ==== Sys2Proof/WellFormed.lean ====
section
/-! DEFINITION. Which operands an operation may carry. -/

namespace Sys2Proof

/-- A q-value lies in −65280..65280 (R10, R20). -/
def qInRange (q : Int) : Bool := decide (-qOne ≤ q ∧ q ≤ qOne)

/-- A q-value of the range [0,1] lies in 0..65280 (R10, R141). -/
def qNonNegInRange (q : Int) : Bool := decide (0 ≤ q ∧ q ≤ qOne)

/-- A target is `skip` or a q-value (R100). R100 gives a sampled target the range 0..65280 in ABS and SINGLE; the mode is
no part of an operation, so a CTRL of its own may carry a negative target in any mode. DESIGN CHOICE (log 21). -/
def Target.wellFormed : Target → Bool
  | .skip => true
  | .value q => qInRange q

/-- The operand ranges that the operand types do not already give: the target of CTRL (R100, R129) and the
operands of ENC.ABS (R141) and ENC.DELTA (R142). -/
def Instr.wellFormed : Instr → Bool
  | .start => true
  | .tick => true
  | .close => true
  | .rdreg _ => true
  | .wrreg _ _ => true
  | .wrfb _ _ => true
  | .reset => true
  | .latchcfg => true
  | .sampleAbs => true
  | .sampleDelta => true
  | .sampleSingle => true
  | .ctrl _ _ t => t.wellFormed
  | .encAbs q => qNonNegInRange q
  | .encDelta q => qInRange q
  | .emit _ _ _ => true
  | .tauClose => true
  | .tauStop => true
  | .ledcmd _ _ _ => true

end Sys2Proof
end

