-- ==== Sys2Proof/Decode.lean ====
section
/-! DEFINITION. The decoder, total on any bytes, and the encoder.

The spec gives bit patterns to the command word (format C, R81), to the mode tag (format M, R83) and to the command
line (format L, R84, R88, R95). Those are read as they stand: four bytes are a command word, one byte is a mode
tag, and bytes that begin with a digit are a command line. For bus accesses, pins, internal transitions and the
micro-operations with operands the spec gives tuples and no bit pattern (R82, R85, R90); their records here begin
with the letter of their format and are the model's own carrier. DESIGN CHOICE (log 3, log 4, log 16). -/

namespace Sys2Proof

/-- Why a record is no encoding of an operation. -/
inductive DecodeError where
  /-- No bytes at all. -/
  | empty
  /-- A command word other than 1, 2 and 3 (R91). -/
  | reservedCommand (v : Word)
  /-- A mode tag other than 0, 1 and 2 (R92). -/
  | reservedModeTag (t : Byte)
  /-- The first byte names no format. -/
  | unknownFormat (f : Byte)
  /-- No operation of this format has this number and this many operand bytes. -/
  | unknownOperation (f k : Byte)
  /-- An operand outside its range. -/
  | operandRange
  /-- Bytes that begin with a digit and are no line of the grammar of R95. -/
  | malformedLine
deriving DecidableEq, Repr

/-! ### Bytes -/

/-- The byte that holds the low 8 bits of a natural. -/
def byteOf (n : Nat) : Byte := BitVec.ofNat 8 n

/-- The low `k` bytes of a natural, the least significant first. -/
def bytesOf : Nat → Nat → List Byte
  | 0, _ => []
  | k + 1, w => byteOf w :: bytesOf k (w / 256)

/-- The natural whose bytes these are, the least significant first. -/
def natOfBytes : List Byte → Nat
  | [] => 0
  | b :: bs => b.toNat + 256 * natOfBytes bs

/-- The 32-bit word whose bytes these are. -/
def wordOf (bs : List Byte) : Word := BitVec.ofNat 32 (natOfBytes bs)

/-- The four bytes of a word. -/
def bytesOfWord (w : Word) : List Byte := bytesOf 4 w.toNat

/-- The four bytes that carry a q-value, two's complement. -/
def bytesOfQ (q : Int) : List Byte := bytesOfWord (BitVec.ofInt 32 q)

/-- The q-value that four bytes carry. -/
def qOf (bs : List Byte) : Int := (wordOf bs).toInt

/-! ### Decimal text (R84, R88, R95) -/

/-- The separator 0x2C of a command line (R84). -/
def comma : Byte := 0x2C

/-- The terminator 0x0A of a command line (R84). -/
def lineFeed : Byte := 0x0A

/-- `dec(n)` for 0 ≤ n ≤ 255 (R88). -/
def dec (n : Nat) : List Byte :=
  if 100 ≤ n then [byteOf (0x30 + n / 100), byteOf (0x30 + n / 10 % 10), byteOf (0x30 + n % 10)]
  else if 10 ≤ n then [byteOf (0x30 + n / 10), byteOf (0x30 + n % 10)]
  else [byteOf (0x30 + n)]

/-- The line of a Command (R84): `<row>,<col>,<value>\n`. -/
def ledLine (row col value : Nat) : List Byte :=
  dec row ++ comma :: dec col ++ comma :: dec value ++ [lineFeed]

/-- The value of an ASCII digit. -/
def digitOf (b : Byte) : Option Nat :=
  if 0x30 ≤ b.toNat ∧ b.toNat ≤ 0x39 then some (b.toNat - 0x30) else none

/-- A `number` of the grammar (R95) at the head of the bytes, with the bytes after it: no leading zero, at most
255. -/
def takeNumber : List Byte → Option (Nat × List Byte)
  | [] => none
  | b0 :: t0 =>
    match digitOf b0 with
    | none => none
    | some d0 =>
      if d0 = 0 then some (0, t0)
      else
        match t0 with
        | [] => some (d0, [])
        | b1 :: t1 =>
          match digitOf b1 with
          | none => some (d0, b1 :: t1)
          | some d1 =>
            match t1 with
            | [] => some (10 * d0 + d1, [])
            | b2 :: t2 =>
              match digitOf b2 with
              | none => some (10 * d0 + d1, b2 :: t2)
              | some d2 =>
                if 100 * d0 + 10 * d1 + d2 ≤ 255 then some (100 * d0 + 10 * d1 + d2, t2) else none

/-- The bytes after one expected byte. -/
def takeByte (b : Byte) : List Byte → Option (List Byte)
  | [] => none
  | b' :: t => if b' = b then some t else none

/-- A command line at the head of the bytes (R95), with the bytes after it. -/
def takeLine (bs : List Byte) : Option ((Nat × Nat × Nat) × List Byte) := do
  let (row, t) ← takeNumber bs
  let t ← takeByte comma t
  let (col, t) ← takeNumber t
  let t ← takeByte comma t
  let (value, t) ← takeNumber t
  let t ← takeByte lineFeed t
  return ((row, col, value), t)

/-! ### The decoder -/

/-- Format C (R81, R91). -/
def decodeCommand (v : Word) : Except DecodeError Instr :=
  if v = 0x00000001 then .ok .start
  else if v = 0x00000002 then .ok .tick
  else if v = 0x00000003 then .ok .close
  else .error (.reservedCommand v)

/-- A mode tag that stands alone selects the sampler of that mode (R83), the only micro-operation that has a tag of
its own for each mode (log 4). Tag 3, and bits above the tag, are reserved (R92). -/
def decodeModeTag (t : Byte) : Except DecodeError Instr :=
  if t = 0 then .ok .sampleAbs
  else if t = 1 then .ok .sampleDelta
  else if t = 2 then .ok .sampleSingle
  else .error (.reservedModeTag t)

/-- Format B (R82): the tuples of RDREG (0), WRREG (1) and WRFB (2). -/
def decodeBus (k : Byte) (rest : List Byte) : Except DecodeError Instr :=
  match rest with
  | [n0, n1, n2, n3] =>
    if k = 0 then .ok (.rdreg (wordOf [n0, n1, n2, n3])) else .error (.unknownOperation 0x42 k)
  | [n0, n1, n2, n3, v0, v1, v2, v3] =>
    if k = 1 then .ok (.wrreg (wordOf [n0, n1, n2, n3]) (wordOf [v0, v1, v2, v3]))
    else .error (.unknownOperation 0x42 k)
  | [a0, a1, a2, a3, b] =>
    if k = 2 then .ok (.wrfb (wordOf [a0, a1, a2, a3]) b) else .error (.unknownOperation 0x42 k)
  | _ => .error (.unknownOperation 0x42 k)

/-- The micro-operations that a bare mode tag does not name, with the operands the opcode table lists: LATCHCFG (0),
CTRL (4) with its target (0: skip, 1: a q-value), ENC.ABS (5), ENC.DELTA (6), EMIT (7). The decoder knows no mode, so
it reads a CTRL with any target of −65280..65280. DESIGN CHOICE (log 21). -/
def decodeMicro (k : Byte) (rest : List Byte) : Except DecodeError Instr :=
  match rest with
  | [] => if k = 0 then .ok .latchcfg else .error (.unknownOperation 0x4D k)
  | [r, c, z] =>
    if k = 4 ∧ z = 0 then .ok (.ctrl r c .skip)
    else if k = 7 then .ok (.emit r c z)
    else .error (.unknownOperation 0x4D k)
  | [r, c, z, q0, q1, q2, q3] =>
    if k = 4 ∧ z = 1 then
      if qInRange (qOf [q0, q1, q2, q3]) then .ok (.ctrl r c (.value (qOf [q0, q1, q2, q3])))
      else .error .operandRange
    else .error (.unknownOperation 0x4D k)
  | [q0, q1, q2, q3] =>
    if k = 5 then
      if qNonNegInRange (qOf [q0, q1, q2, q3]) then .ok (.encAbs (qOf [q0, q1, q2, q3]))
      else .error .operandRange
    else if k = 6 then
      if qInRange (qOf [q0, q1, q2, q3]) then .ok (.encDelta (qOf [q0, q1, q2, q3]))
      else .error .operandRange
    else .error (.unknownOperation 0x4D k)
  | _ => .error (.unknownOperation 0x4D k)

/-- Format P (R85): the reset pin. -/
def decodePin (k : Byte) (rest : List Byte) : Except DecodeError Instr :=
  match rest with
  | [] => if k = 0 then .ok .reset else .error (.unknownOperation 0x50 k)
  | _ => .error (.unknownOperation 0x50 k)

/-- Format T (R85): TAU.CLOSE (0) and TAU.STOP (1). -/
def decodeTau (k : Byte) (rest : List Byte) : Except DecodeError Instr :=
  match rest with
  | [] =>
    if k = 0 then .ok .tauClose
    else if k = 1 then .ok .tauStop
    else .error (.unknownOperation 0x54 k)
  | _ => .error (.unknownOperation 0x54 k)

/-- Format L (R84, R95): one whole command line and nothing after it. The decoder knows no state, so the side conditions
row < NC and col < MC of R95 are not checked here. DESIGN CHOICE (log 20). -/
def decodeLine (bs : List Byte) : Except DecodeError Instr :=
  match takeLine bs with
  | some ((row, col, value), []) => .ok (.ledcmd (byteOf row) (byteOf col) (byteOf value))
  | _ => .error .malformedLine

/-- The operation that a record stands for, or why it stands for none. -/
def decode (bs : List Byte) : Except DecodeError Instr :=
  match bs with
  | [] => .error .empty
  | [t] => decodeModeTag t
  | [b0, b1, b2, b3] => decodeCommand (wordOf [b0, b1, b2, b3])
  | f :: k :: rest =>
    if f = 0x42 then decodeBus k rest
    else if f = 0x4D then decodeMicro k rest
    else if f = 0x50 then decodePin k rest
    else if f = 0x54 then decodeTau k rest
    else if (digitOf f).isSome then decodeLine (f :: k :: rest)
    else .error (.unknownFormat f)

/-! ### The encoder -/

/-- The bytes of a well-formed operation. -/
def encode : Instr → List Byte
  | .start => bytesOfWord 0x00000001
  | .tick => bytesOfWord 0x00000002
  | .close => bytesOfWord 0x00000003
  | .rdreg n => 0x42 :: 0 :: bytesOfWord n
  | .wrreg n v => 0x42 :: 1 :: (bytesOfWord n ++ bytesOfWord v)
  | .wrfb a b => 0x42 :: 2 :: (bytesOfWord a ++ [b])
  | .reset => [0x50, 0]
  | .latchcfg => [0x4D, 0]
  | .sampleAbs => [0]
  | .sampleDelta => [1]
  | .sampleSingle => [2]
  | .ctrl r c .skip => [0x4D, 4, r, c, 0]
  | .ctrl r c (.value q) => 0x4D :: 4 :: r :: c :: 1 :: bytesOfQ q
  | .encAbs q => 0x4D :: 5 :: bytesOfQ q
  | .encDelta q => 0x4D :: 6 :: bytesOfQ q
  | .emit r c v => [0x4D, 7, r, c, v]
  | .tauClose => [0x54, 0]
  | .tauStop => [0x54, 1]
  | .ledcmd row col value => ledLine row.toNat col.toNat value.toNat

/-! ### The words of the opcode table -/

/-- The bytes of a table word of `nbits` bits, the least significant byte first (log 16). -/
def layoutWord (nbits w : Nat) : List Byte := bytesOf ((nbits + 7) / 8) w

/-- The operation the decoder reads from a word of the opcode table. -/
def decodeTableWord (nbits w : Nat) : Option Instr :=
  match decode (layoutWord nbits w) with
  | .ok i => some i
  | .error _ => none

end Sys2Proof
end

