-- ==== Sys2Proof/Machine/GammaTable.lean ====
section
/-! DEFINITION. The default contents of the gamma table GLUT (R49), as literal data, 32 entries a piece. -/

namespace Sys2Proof.Machine

/-- GLUT[0] to GLUT[31] at reset (R49). -/
def glutPart0 : List Half := [
  0, 5259, 7207, 8665, 9876, 10930, 11874, 12736,
  13533, 14277, 14978, 15641, 16272, 16875, 17453, 18009,
  18545, 19063, 19565, 20052, 20525, 20985, 21433, 21871,
  22298, 22716, 23124, 23524, 23916, 24301, 24678, 25049]

/-- GLUT[32] to GLUT[63] at reset (R49). -/
def glutPart1 : List Half := [
  25413, 25771, 26123, 26470, 26811, 27147, 27478, 27804,
  28126, 28443, 28757, 29066, 29371, 29673, 29971, 30265,
  30556, 30844, 31128, 31410, 31688, 31964, 32237, 32507,
  32774, 33039, 33301, 33561, 33818, 34073, 34326, 34576]

/-- GLUT[64] to GLUT[95] at reset (R49). -/
def glutPart2 : List Half := [
  34825, 35071, 35315, 35558, 35798, 36036, 36273, 36507,
  36740, 36971, 37201, 37428, 37654, 37879, 38101, 38323,
  38542, 38761, 38977, 39193, 39407, 39619, 39830, 40040,
  40249, 40456, 40662, 40867, 41070, 41273, 41474, 41674]

/-- GLUT[96] to GLUT[127] at reset (R49). -/
def glutPart3 : List Half := [
  41873, 42070, 42267, 42462, 42657, 42850, 43043, 43234,
  43424, 43613, 43802, 43989, 44176, 44361, 44546, 44729,
  44912, 45094, 45275, 45455, 45634, 45812, 45990, 46167,
  46343, 46518, 46692, 46866, 47039, 47211, 47382, 47552]

/-- GLUT[128] to GLUT[159] at reset (R49). -/
def glutPart4 : List Half := [
  47722, 47891, 48060, 48227, 48394, 48561, 48726, 48891,
  49056, 49219, 49382, 49545, 49706, 49867, 50028, 50188,
  50347, 50505, 50663, 50821, 50978, 51134, 51290, 51445,
  51599, 51754, 51907, 52060, 52212, 52364, 52516, 52666]

/-- GLUT[160] to GLUT[191] at reset (R49). -/
def glutPart5 : List Half := [
  52817, 52966, 53116, 53265, 53413, 53561, 53708, 53855,
  54001, 54147, 54292, 54437, 54582, 54726, 54869, 55012,
  55155, 55297, 55439, 55580, 55721, 55862, 56002, 56142,
  56281, 56420, 56558, 56696, 56834, 56971, 57108, 57244]

/-- GLUT[192] to GLUT[223] at reset (R49). -/
def glutPart6 : List Half := [
  57380, 57516, 57651, 57786, 57921, 58055, 58188, 58322,
  58455, 58588, 58720, 58852, 58983, 59115, 59246, 59376,
  59506, 59636, 59766, 59895, 60024, 60152, 60281, 60408,
  60536, 60663, 60790, 60917, 61043, 61169, 61295, 61420]

/-- GLUT[224] to GLUT[255] at reset (R49). -/
def glutPart7 : List Half := [
  61545, 61670, 61794, 61918, 62042, 62166, 62289, 62412,
  62535, 62657, 62779, 62901, 63022, 63144, 63265, 63385,
  63506, 63626, 63746, 63865, 63985, 64104, 64222, 64341,
  64459, 64577, 64695, 64813, 64930, 65047, 65164, 65280]

theorem glutPart0_length : glutPart0.length = 32 := rfl
theorem glutPart1_length : glutPart1.length = 32 := rfl
theorem glutPart2_length : glutPart2.length = 32 := rfl
theorem glutPart3_length : glutPart3.length = 32 := rfl
theorem glutPart4_length : glutPart4.length = 32 := rfl
theorem glutPart5_length : glutPart5.length = 32 := rfl
theorem glutPart6_length : glutPart6.length = 32 := rfl
theorem glutPart7_length : glutPart7.length = 32 := rfl

/-- The 256 reset values of GLUT, in order (R49). -/
def glutResetList : List Half :=
  glutPart0 ++ glutPart1 ++ glutPart2 ++ glutPart3 ++ glutPart4 ++ glutPart5 ++ glutPart6 ++ glutPart7

theorem glutResetList_length : glutResetList.length = 256 := by
  simp only [glutResetList, List.length_append, glutPart0_length, glutPart1_length, glutPart2_length,
    glutPart3_length, glutPart4_length, glutPart5_length, glutPart6_length, glutPart7_length]

/-- The gamma table at reset (R49, R215). -/
def glutReset : Vector Half 256 := ⟨glutResetList.toArray, glutResetList_length⟩

end Sys2Proof.Machine
end

