-- ==== Sys2Proof/Machine/State.lean ====
section
/-! DEFINITION. The state of the block as plain data (R20 to R56), the reasons a step can stop, and the state after
reset (R56, R215). -/

namespace Sys2Proof.Machine

/-- The scheduler state ST (R26). -/
inductive SchedState where
  | idle
  | running
  | shutting
  | stopped
deriving DecidableEq, Repr

/-- The mode tag of MODE and MODE_ACT (R38). The reserved tag 3 cannot be stored (R92), so it is no value here. -/
inductive Mode where
  | abs
  | delta
  | single
deriving DecidableEq, Repr

/-- The levels of the three input pins at an event (R45). -/
structure Pins where
  /-- TRANSPORT_READY, sampled by START. -/
  transportReady : Bool
  /-- SOURCE_READY, sampled by START. -/
  sourceReady : Bool
  /-- TX_FAIL: true iff the sink reported a failure at any byte of the tick. -/
  txFail : Bool
deriving DecidableEq, Repr

/-- One element of the total order of events (R70): the encoded operation, and the pin levels it samples (R45). -/
structure Record where
  pins : Pins
  bytes : List Byte
deriving DecidableEq, Repr

/-- What stands behind a cell register that nothing has written: zero (R23, R25), or after TAU.STOP the free values
of one draw (R25, R168, U5; log 7). -/
inductive CellFill where
  | zero
  | unspecified (draw : Nat)
deriving DecidableEq, Repr

/-- Cell registers by (row, column): strictly rising keys, and over a zero background no listed zero. -/
abbrev CellList := List ((Nat × Nat) × CellWord)

/-- The cell arrays CUR and SM (R20). -/
structure Cells where
  fill : CellFill
  cur : CellList
  sm : CellList
deriving DecidableEq, Repr

/-- The frame buffer's written bytes: (address, byte) pairs with strictly rising addresses. An unlisted address has no
listed value, and the pixel read gives a free value there (R50, U6; log 8). -/
abbrev Memory := List Host.Cell

/-- The state of the block. The fields from `pins` on are inputs, results and bookkeeping of the model
(INVENTORY.md, section State), not registers of the spec. -/
structure State where
  /-- H, W, NMAX, MMAX, GAP_RESET (R7); no operation changes them. -/
  params : Params
  /-- CUR and SM (R20 to R25). -/
  cells : Cells
  /-- ST (R26). -/
  st : SchedState
  /-- BUSY (R28). -/
  busy : Bool
  /-- CLOSE_REQ (R53). -/
  closeReq : Bool
  /-- SRC_HELD (R46). -/
  srcHeld : Bool
  /-- TX_HELD (R46). -/
  txHeld : Bool
  /-- FRAME_VALID (R47). -/
  frameValid : Bool
  /-- ERR[7:0] (R37). -/
  err : Byte
  /-- MODE (R38). -/
  mode : Mode
  /-- MODE_ACT (R38). -/
  modeAct : Mode
  /-- GRID_N (R39). -/
  gridN : Word
  /-- GRID_M (R39). -/
  gridM : Word
  /-- N_ACT (R39). -/
  nAct : Byte
  /-- M_ACT (R39). -/
  mAct : Byte
  /-- KP (R40). -/
  kp : Half
  /-- SMOOTH (R41). -/
  smooth : Half
  /-- NOISE (R42). -/
  noise : Half
  /-- GAP (R43). -/
  gap : Half
  /-- CELL_SEL (R44). -/
  cellSel : Half
  /-- GLUT[0..255] (R48). -/
  glut : Vector Half 256
  /-- FB (R50). -/
  fb : Memory
  /-- TX: every byte emitted since power-on (R52). -/
  tx : List Byte
  /-- The pin levels of the present event (R45; log 5). -/
  pins : Pins
  /-- The events still to come, oldest first (R70; log 2). -/
  pending : List Record
  /-- The word the last RDREG returned (R157; log 11). -/
  rdData : Word
  /-- The TargetMatrix the last SAMPLE operation that ran on its own returned, row by row (R100; log 11). -/
  targets : List (List Target)
  /-- The value the last ENC operation that ran on its own returned (R141, R142; log 11). -/
  encValue : Byte
  /-- For each element of the actuator array, the value the last LEDCMD line asked for (R148; log 13). -/
  asked : List ((Nat × Nat) × Byte)
  /-- The next draw of free values (log 7). -/
  freeCount : Nat
  /-- The draw that stands behind the bytes of FB nothing has written since the last reset (R50, U6; log 8). -/
  fbFill : Nat
deriving DecidableEq, Repr

/-- Faults. There is none: no condition of this block traps or stops it (R190, R202, R221); every error is a sticky
bit of ERR. -/
inductive Fault
deriving DecidableEq, Repr

/-- Why a step can be refused. -/
inductive Refusal where
  /-- Raised by `exec` for an operation without a meaning; no arm raises it. Safe. -/
  | notModelled (mnemonic : String)
  /-- Raised by `step` when the next record is the encoding of no operation, so that nothing of the spec says what it
  would do (log 15). Safe. -/
  | undecodable (e : DecodeError)
deriving DecidableEq, Repr

/-- The instance `p` at power-on: every element at the value R56 and R215 give it, and TX empty (R52, R215). FB is
unspecified, so nothing of it is listed. The pins are at the defaults of R96 and no event is pending (DESIGN CHOICE,
log 2 and 5); the model's result fields are empty (DESIGN CHOICE, log 11 and 13). -/
def State.resetOf (p : Params) : State where
  params := p
  cells := { fill := .zero, cur := [], sm := [] }
  st := .idle
  busy := false
  closeReq := false
  srcHeld := false
  txHeld := false
  frameValid := false
  err := 0
  mode := .abs
  modeAct := .abs
  gridN := 5
  gridM := 5
  nAct := 5
  mAct := 5
  kp := 9830
  smooth := 52429
  noise := 768
  gap := p.gapReset
  cellSel := 0
  glut := glutReset
  fb := []
  tx := []
  pins := { transportReady := true, sourceReady := true, txFail := false }
  pending := []
  rdData := 0
  targets := []
  encValue := 0
  asked := []
  freeCount := 1
  fbFill := 0

/-- The machine right after power-on reset, for the instance `Config.params` (log 1). -/
def State.reset : State := State.resetOf Config.params

end Sys2Proof.Machine
end

