-- ==== Sys2Proof/Machine/Operands.lean ====
section
/-! DEFINITION. The arithmetic primitives (R12 to R14), the register numbers (R33), the codes of ST and of the mode tag
(R26, R38), the gamma lookup (R126, R127), the value mappings of the encoder (R141, R142) and the order of the cells
(R27). -/

namespace Sys2Proof.Machine

/-! ### Arithmetic primitives -/

/-- `rshr(x, k) = (x + 2^(k−1)) div 2^k`: nearest, a tie toward +infinity (R12). -/
def rshr (x : Int) (k : Nat) : Int := (x + 2 ^ (k - 1)) / 2 ^ k

/-- `divr(a, b) = (2·a + b) div (2·b)`: nearest, a tie up (R13). -/
def divr (a b : Nat) : Nat := (2 * a + b) / (2 * b)

/-- `clamp(x, lo, hi)` (R14). -/
def clamp (x lo hi : Int) : Int := if x < lo then lo else if hi < x then hi else x

/-! ### Registers -/

/-- The registers of the map (R33). -/
inductive Reg where
  | cmd
  | status
  | err
  | mode
  | gridN
  | gridM
  | kp
  | smooth
  | noise
  | gap
  | frameValid
  | nAct
  | mAct
  | modeAct
  | cellSel
  | cellCur
  | cellSm
  | glut (i : Fin 256)
  | unmapped
deriving DecidableEq, Repr

/-- The register of a register number (R33, R34, R68). -/
def regOf (n : Word) : Reg :=
  if n = 0x000 then .cmd
  else if n = 0x001 then .status
  else if n = 0x002 then .err
  else if n = 0x003 then .mode
  else if n = 0x004 then .gridN
  else if n = 0x005 then .gridM
  else if n = 0x006 then .kp
  else if n = 0x007 then .smooth
  else if n = 0x008 then .noise
  else if n = 0x009 then .gap
  else if n = 0x00A then .frameValid
  else if n = 0x00B then .nAct
  else if n = 0x00C then .mAct
  else if n = 0x00D then .modeAct
  else if n = 0x00E then .cellSel
  else if n = 0x00F then .cellCur
  else if n = 0x010 then .cellSm
  else if h : 0x100 ≤ n.toNat ∧ n.toNat ≤ 0x1FF then .glut ⟨n.toNat - 0x100, by omega⟩
  else .unmapped

/-- The code of ST (R26). -/
def stCode : SchedState → BitVec 2
  | .idle => 0
  | .running => 1
  | .shutting => 2
  | .stopped => 3

/-- The code of a mode tag (R38). -/
def modeCode : Mode → BitVec 2
  | .abs => 0
  | .delta => 1
  | .single => 2

/-- The mode a write of `v` to MODE asks for; none when v > 2 (R38, R92). -/
def modeOf (v : Word) : Option Mode :=
  if v = 0 then some .abs
  else if v = 1 then some .delta
  else if v = 2 then some .single
  else none

/-! ### Gamma lookup -/

/-- GLUT[i] as an integer. -/
def glutAt (g : Vector Half 256) (i : Nat) : Int :=
  if h : i < 256 then ((g[i]'h).toNat : Int) else 0

/-- `gam(a)`: table lookup with linear interpolation (R126). The index is a[15:8] and the fraction a[7:0]. -/
def gam (g : Vector Half 256) (a : Nat) : Int :=
  if a / 256 % 256 = 255 then glutAt g 255
  else glutAt g (a / 256 % 256)
    + rshr ((glutAt g (a / 256 % 256 + 1) - glutAt g (a / 256 % 256)) * ((a % 256 : Nat) : Int)) 8

/-- `sgam(x)`: the sign-preserving lookup (R127). -/
def sgam (g : Vector Half 256) (x : Int) : Int :=
  if 0 ≤ x then gam g x.toNat else - gam g (-x).toNat

/-! ### Value mappings of the encoder -/

/-- `ENC.ABS(s) = clamp(rshr(s, 8), 0, 255)` (R141). -/
def encAbsOf (q : Int) : Int := clamp (rshr q 8) 0 255

/-- `ENC.DELTA(s) = clamp(rshr(s + 65280, 9), 0, 255)` (R142). -/
def encDeltaOf (q : Int) : Int := clamp (rshr (q + 65280) 9) 0 255

/-! ### Cell order -/

/-- The cells of an n × m rectangle, row-major: r outer, c inner (R27, R143). -/
def cellOrder (n m : Nat) : List (Nat × Nat) :=
  (List.range n).flatMap fun r => (List.range m).map fun c => (r, c)

end Sys2Proof.Machine
end

