-- ==== Sys2Proof/Machine/Flags.lean ====
section
/-! DEFINITION. The flags: the sticky error bits of ERR (R37, R191) and the STATUS word (R36). The block has no
arithmetic condition codes (R29). -/

namespace Sys2Proof.Machine

/-- The eight error conditions (R191). -/
inductive ErrFlag where
  | noTransport
  | noFrame
  | badGrid
  | txFail
  | degen
  | badCmd
  | badWr
  | overrun
deriving DecidableEq, Repr

/-- The code of a condition: its bit of ERR (R37, R191). -/
def errBit : ErrFlag → Nat
  | .noTransport => 0
  | .noFrame => 1
  | .badGrid => 2
  | .txFail => 3
  | .degen => 4
  | .badCmd => 5
  | .badWr => 6
  | .overrun => 7

/-- ERR with one flag set (R190). -/
def setErr (e : Byte) (f : ErrFlag) : Byte := e ||| BitVec.twoPow 8 (errBit f)

/-- A bit of ERR. -/
def State.hasErr (s : State) (f : ErrFlag) : Bool := s.err.getLsbD (errBit f)

/-- The STATUS word (R36, R157): from bit 6 down FRAME_VALID, TX_HELD, SRC_HELD, CLOSE_REQ, BUSY, ST[1:0]. -/
def statusWord (s : State) : Word :=
  (BitVec.ofBool s.frameValid ++ BitVec.ofBool s.txHeld ++ BitVec.ofBool s.srcHeld ++ BitVec.ofBool s.closeReq
    ++ BitVec.ofBool s.busy ++ stCode s.st).setWidth 32

end Sys2Proof.Machine
end

