-- ==== Sys2Proof/Machine/Ops.lean ====
section
/-! DEFINITION. The named operations over registers, cells and memory, and `raise`, the one error mechanism of the
block. -/

namespace Sys2Proof.Machine

/-! ### The error mechanism

The spec's exceptions are its error conditions, and taking one is `raise` (R190, R202): it sets the sticky bit of ERR
and the operation goes on with whatever its rule says next. Nothing is saved, no state or mode changes, control goes
nowhere else, and there is no return (R203). -/

/-- `raise X` (R15, R190). -/
def raise (f : ErrFlag) (s : State) : State := { s with err := setErr s.err f }

/-! ### Lists of entries with rising keys -/

/-- The listed value of a key. -/
def listed {κ α : Type} [DecidableEq κ] (k : κ) : List (κ × α) → Option α
  | [] => none
  | (k', v) :: t => if k' = k then some v else listed k t

/-- The entries but those of one key. -/
def unlist {κ α : Type} [DecidableEq κ] (k : κ) : List (κ × α) → List (κ × α)
  | [] => []
  | (k', v) :: t => if k' = k then unlist k t else (k', v) :: unlist k t

/-- An entry put before the first greater key. -/
def insertRising {κ α : Type} (lt : κ → κ → Bool) (k : κ) (v : α) : List (κ × α) → List (κ × α)
  | [] => [(k, v)]
  | (k', v') :: t => if lt k k' then (k, v) :: (k', v') :: t else (k', v') :: insertRising lt k v t

/-- The entries with one key's value replaced or added. -/
def enlist {κ α : Type} [DecidableEq κ] (lt : κ → κ → Bool) (k : κ) (v : α) (l : List (κ × α)) : List (κ × α) :=
  insertRising lt k v (unlist k l)

/-- Strictly rising keys. -/
def rising {κ α : Type} (lt : κ → κ → Bool) : List (κ × α) → Bool
  | [] => true
  | [_] => true
  | e :: e' :: t => lt e.1 e'.1 && rising lt (e' :: t)

/-- The order of frame addresses. -/
def addrLt (a b : Nat) : Bool := decide (a < b)

/-- The row-major order of cells (R27). -/
def cellLt (a b : Nat × Nat) : Bool := decide (a.1 < b.1) || (decide (a.1 = b.1) && decide (a.2 < b.2))

/-! ### The frame buffer -/

/-- The byte written at an address of FB, if any was since the last reset. -/
def Memory.read? (m : Memory) (a : Nat) : Option Byte := listed a m

/-- `FB[a] <- b` (R160). -/
def Memory.write (m : Memory) (a : Nat) (b : Byte) : Memory := enlist addrLt a b m

/-- The canonical form: strictly rising addresses. An unlisted address has no listed value, so no entry equals one. -/
def Memory.wf (m : Memory) : Bool := rising addrLt m

/-- The number of bytes of the frame space, H·W (R50). -/
def State.frameSize (s : State) : Nat := s.params.height * s.params.width

/-- The pixel read primitive `FB[a]` (R65): the byte last written, and where nothing has been written since the last
reset a free value (R50, U6; log 8). -/
def State.pixel (s : State) (a : Nat) : Byte :=
  match s.fb.read? a with
  | some b => b
  | none => Config.fbUnwritten s.fbFill a

/-! ### The cell arrays -/

/-- What a cell that nothing has written reads as (R25, U5; log 7). -/
def fillAt (fill : CellFill) (free : Nat → Nat → Nat → CellWord) (r c : Nat) : CellWord :=
  match fill with
  | .zero => 0
  | .unspecified draw => free draw r c

/-- One cell register of a list over its background. -/
def cellAt (fill : CellFill) (free : Nat → Nat → Nat → CellWord) (l : CellList) (r c : Nat) : CellWord :=
  match listed (r, c) l with
  | some v => v
  | none => fillAt fill free r c

/-- A write of one cell register; over a zero background a zero is not listed. -/
def cellPut (fill : CellFill) (l : CellList) (r c : Nat) (v : CellWord) : CellList :=
  if fill = .zero ∧ v = 0 then unlist (r, c) l else enlist cellLt (r, c) v l

/-- The canonical form: strictly rising keys, and over a zero background no listed zero. -/
def cellListWf (fill : CellFill) (l : CellList) : Bool :=
  rising cellLt l && (decide (fill ≠ .zero) || l.all fun e => decide (e.2 ≠ 0))

/-- CUR[r][c] (R20). -/
def Cells.curAt (cs : Cells) (r c : Nat) : CellWord := cellAt cs.fill Config.curAfterStop cs.cur r c

/-- SM[r][c] (R20). -/
def Cells.smAt (cs : Cells) (r c : Nat) : CellWord := cellAt cs.fill Config.smAfterStop cs.sm r c

/-- `CUR[r][c] <- cur ; SM[r][c] <- sm`. -/
def Cells.put (cs : Cells) (r c : Nat) (cur sm : CellWord) : Cells :=
  { cs with cur := cellPut cs.fill cs.cur r c cur, sm := cellPut cs.fill cs.sm r c sm }

/-- The canonical form of both arrays. -/
def Cells.wf (cs : Cells) : Bool := cellListWf cs.fill cs.cur && cellListWf cs.fill cs.sm

/-- CUR[r][c] as the q-value it holds (R20). -/
def State.curQ (s : State) (r c : Nat) : Int := (s.cells.curAt r c).toInt

/-- SM[r][c] as the q-value it holds (R20). -/
def State.smQ (s : State) (r c : Nat) : Int := (s.cells.smAt r c).toInt

/-- Zero the cells of an n × m rectangle that a test selects, one by one as the loop of R165 does. -/
def zeroCells (n m : Nat) (sel : Nat → Nat → Bool) (cs : Cells) : Cells :=
  (cellOrder n m).foldl (fun cs rc => if sel rc.1 rc.2 then cs.put rc.1 rc.2 0 0 else cs) cs

/-! ### The control region (R23) -/

/-- NC: the rows of the control region. -/
def State.nc (s : State) : Nat :=
  match s.modeAct with
  | .single => 1
  | _ => s.nAct.toNat

/-- MC: the columns of the control region. -/
def State.mc (s : State) : Nat :=
  match s.modeAct with
  | .single => 1
  | _ => s.mAct.toNat

/-- The cells of the control region, row-major. -/
def State.region (s : State) : List (Nat × Nat) := cellOrder s.nc s.mc

/-- Whether a cell lies in the control region. -/
def State.inRegion (s : State) (r c : Nat) : Bool := decide (r < s.nc ∧ c < s.mc)

/-- `lo` of the configured range (R122); `hi` is 65280 in every mode. -/
def rangeLo : Mode → Int
  | .delta => -65280
  | _ => 0

/-! ### The debug window (R44) -/

/-- The cell that CELL_SEL selects, if the arrays have it: row CELL_SEL[15:8], column CELL_SEL[7:0]. -/
def State.selected (s : State) : Option (Nat × Nat) :=
  if s.cellSel.toNat / 256 < s.params.nmax ∧ s.cellSel.toNat % 256 < s.params.mmax then
    some (s.cellSel.toNat / 256, s.cellSel.toNat % 256)
  else none

/-! ### The transmit stream (R52) -/

/-- TX.emit of bytes in order, TXFAIL raised when the pin reported a failure at one of them (R144, R195). -/
def emitBytes (bs : List Byte) (s : State) : State :=
  { s with tx := s.tx ++ bs, err := if s.pins.txFail && !bs.isEmpty then setErr s.err .txFail else s.err }

end Sys2Proof.Machine
end

