-- ==== Sys2Proof/Machine/Control.lean ====
section
/-! DEFINITION. The ControlLoop: CTRL, the five steps of the per-cell update (R120 to R137). -/

namespace Sys2Proof.Machine

/-- Steps 1 and 2: the error against the previous smoothed output, gated by NOISE (R123, R124). -/
def gatedError (noise : Nat) (t sm : Int) : Int := if (t - sm).natAbs < noise then 0 else t - sm

/-- Step 3: the proportional update (R125). -/
def nextCur (kp : Nat) (lo cur err : Int) : Int := clamp (cur + rshr (kp * err) 16) lo qOne

/-- Step 5: exponential smoothing and the output clamp (R128). -/
def nextSm (smooth : Nat) (lo sm cor : Int) : Int :=
  clamp (rshr (smooth * sm + (65536 - smooth) * cor) 16) lo qOne

/-- The update of one cell (R129), with step 4 the gamma correction (R127): the new (CUR, SM) from the target and
the old (CUR, SM), both read before anything is written. -/
def ctrlUpdate (s : State) (t cur sm : Int) : Int × Int :=
  (nextCur s.kp.toNat (rangeLo s.modeAct) cur (gatedError s.noise.toNat t sm),
   nextSm s.smooth.toNat (rangeLo s.modeAct) sm
     (sgam s.glut (nextCur s.kp.toNat (rangeLo s.modeAct) cur (gatedError s.noise.toNat t sm))))

/-- CTRL(r, c, t) on the cell arrays `cs`, with the configuration of `s` (R121, R129). A skipped cell keeps its values
(R130). -/
def ctrlCell (s : State) (r c : Nat) (t : Target) (cs : Cells) : Cells :=
  match t with
  | .skip => cs
  | .value q =>
    cs.put r c
      (BitVec.ofInt 18 (ctrlUpdate s q (cs.curAt r c).toInt (cs.smAt r c).toInt).1)
      (BitVec.ofInt 18 (ctrlUpdate s q (cs.curAt r c).toInt (cs.smAt r c).toInt).2)

/-- The control phase of a tick: CTRL once for every cell of the control region, row-major (R129, R166). -/
def controlPhase (s : State) (tgt : Nat → Nat → Target) : State :=
  { s with cells := s.region.foldl (fun cs rc => ctrlCell s rc.1 rc.2 (tgt rc.1 rc.2) cs) s.cells }

/-- CTRL (R129). Its cell is a cell of the control region; a cell outside it has no part in control and is never
written (R23, R24), so nothing changes there. DEDUCED (log 12). A target outside the range that R100 gives the mode, a
negative one in ABS or SINGLE, goes through the five steps like any other. DESIGN CHOICE (log 21). -/
def execCtrl (r c : Byte) (t : Target) (s : State) : Host.Outcome State Fault Refusal :=
  if s.inRegion r.toNat c.toNat then .next { s with cells := ctrlCell s r.toNat c.toNat t s.cells } else .next s

end Sys2Proof.Machine
end

