-- ==== Sys2Proof/Machine/Encoder.lean ====
section
/-! DEFINITION. The ProtocolEncoder: ENC.ABS, ENC.DELTA, EMIT, LEDCMD (R140 to R148). -/

namespace Sys2Proof.Machine

/-- The value a mode sends for a smoothed output (R83, R145). -/
def encOf (m : Mode) (q : Int) : Int :=
  match m with
  | .delta => encDeltaOf q
  | _ => encAbsOf q

/-- The line of one cell (R143, R145). -/
def cellLine (s : State) (r c : Nat) : List Byte := ledLine r c (encOf s.modeAct (s.smQ r c)).toNat

/-- The lines of a tick, one per cell of the control region, row-major (R143, R145). -/
def tickLines (s : State) : List Byte := s.region.flatMap fun rc => cellLine s rc.1 rc.2

/-- The encode-and-emit phase of a tick (R145). -/
def emitPhase (s : State) : State := emitBytes (tickLines s) s

/-- ENC.ABS (R141). Run on its own, it leaves the value it returns in `encValue` (log 11), and it runs in DELTA mode as
well. DESIGN CHOICE (log 19). -/
def execEncAbs (q : Int) (s : State) : Host.Outcome State Fault Refusal :=
  .next { s with encValue := BitVec.ofInt 8 (encAbsOf q) }

/-- ENC.DELTA (R142). Run on its own, it leaves the value it returns in `encValue` (log 11), and it runs in ABS and
SINGLE mode as well. DESIGN CHOICE (log 19). -/
def execEncDelta (q : Int) (s : State) : Host.Outcome State Fault Refusal :=
  .next { s with encValue := BitVec.ofInt 8 (encDeltaOf q) }

/-- EMIT (R144). -/
def execEmit (r c v : Byte) (s : State) : Host.Outcome State Fault Refusal :=
  .next (emitBytes (ledLine r.toNat c.toNat v.toNat) s)

/-- LEDCMD (R148): the line asks the actuator array to set the element at (row, col) to the value, and replaces what an
earlier line asked of the same element. The block itself does not change; what the actuator does with the request is
outside the spec (R5), and the model keeps the request only (log 13). A line whose row or column lies outside the
control region is recorded like any other. DESIGN CHOICE (log 20). -/
def execLedcmd (row col value : Byte) (s : State) : Host.Outcome State Fault Refusal :=
  .next { s with asked := enlist cellLt (row.toNat, col.toNat) value s.asked }

end Sys2Proof.Machine
end

