-- ==== Sys2Proof/Machine/Sampler.lean ====
section
/-! DEFINITION. The GridSampler: SAMPLE.ABS, SAMPLE.DELTA, SAMPLE.SINGLE (R100 to R110). -/

namespace Sys2Proof.Machine

/-! ### Block geometry -/

/-- `bh = H div N_ACT` (R101, R102). -/
def State.blockH (s : State) : Nat := s.params.height / s.nAct.toNat

/-- `bw = W div M_ACT` of ABS and SINGLE (R101). -/
def State.blockW (s : State) : Nat := s.params.width / s.mAct.toNat

/-- `hw`, the width of each sub-region of DELTA (R102). -/
def State.halfW (s : State) : Nat :=
  if s.gap.toNat ≤ s.params.width then (s.params.width - s.gap.toNat) / 2 else 0

/-- `xR0`, the first column of the right sub-region (R102). -/
def State.rightX (s : State) : Nat := s.halfW + s.gap.toNat

/-- `bw = hw div M_ACT` of DELTA (R102). -/
def State.blockWDelta (s : State) : Nat := s.halfW / s.mAct.toNat

/-! ### Block mean (R104) -/

/-- BLOCKSUM: the sum of the pixels of a rectangle (R104), pixel (y, x) at address y·W + x (R50). -/
def State.blockSum (s : State) (y0 x0 bh bw : Nat) : Nat :=
  ((List.range bh).map fun j =>
    ((List.range bw).map fun i => (s.pixel ((y0 + j) * s.params.width + (x0 + i))).toNat).sum).sum

/-- MEANQ: the mean of a rectangle as a q-value (R104). -/
def State.meanQ (s : State) (y0 x0 bh bw : Nat) : Nat := divr (256 * s.blockSum y0 x0 bh bw) (bh * bw)

/-! ### Targets -/

/-- tgt(r, c) of SAMPLE.ABS (R105). -/
def targetAbs (s : State) (r c : Nat) : Target :=
  if s.blockH = 0 ∨ s.blockW = 0 then .skip
  else .value (s.meanQ (r * s.blockH) (c * s.blockW) s.blockH s.blockW)

/-- tgt(r, c) of SAMPLE.DELTA (R106): the right mean less the left mean. -/
def targetDelta (s : State) (r c : Nat) : Target :=
  if s.blockH = 0 ∨ s.blockWDelta = 0 then .skip
  else .value
    ((s.meanQ (r * s.blockH) (s.rightX + c * s.blockWDelta) s.blockH s.blockWDelta : Int)
      - (s.meanQ (r * s.blockH) (c * s.blockWDelta) s.blockH s.blockWDelta : Int))

/-- tgt(0, 0) of SAMPLE.SINGLE (R107): the mean of the reference block. -/
def targetSingle (s : State) : Target :=
  if s.blockH = 0 ∨ s.blockW = 0 then .skip else .value (s.meanQ 0 0 s.blockH s.blockW)

/-- Whether the blocks of a mode are degenerate, the same for every cell (R103). -/
def degenerate (m : Mode) (s : State) : Bool :=
  match m with
  | .delta => decide (s.blockH = 0 ∨ s.blockWDelta = 0)
  | _ => decide (s.blockH = 0 ∨ s.blockW = 0)

/-- The target of a cell in the mode of the tick (R83, R166). -/
def targetOf (m : Mode) (s : State) (r c : Nat) : Target :=
  match m with
  | .abs => targetAbs s r c
  | .delta => targetDelta s r c
  | .single => targetSingle s

/-- The one flag a SAMPLE operation writes: DEGEN when the blocks are degenerate (R103, R196). -/
def raiseDegen (m : Mode) (s : State) : State := if degenerate m s then raise .degen s else s

/-- The rows of targets of an n × m grid. -/
def targetRows (n m : Nat) (f : Nat → Nat → Target) : List (List Target) :=
  (List.range n).map fun r => (List.range m).map fun c => f r c

/-! ### The operations

A SAMPLE operation returns the TargetMatrix (R100). Run on its own, it leaves it in `targets` (log 11), and it runs
whichever mode MODE_ACT holds. DESIGN CHOICE (log 19). -/

/-- SAMPLE.ABS (R105). A tick runs it in ABS mode; on its own it runs in every mode. DESIGN CHOICE (log 19). -/
def execSampleAbs (s : State) : Host.Outcome State Fault Refusal :=
  .next { raiseDegen .abs s with targets := targetRows s.nAct.toNat s.mAct.toNat (targetAbs s) }

/-- SAMPLE.DELTA (R106). A tick runs it in DELTA mode; on its own it runs in every mode. DESIGN CHOICE (log 19). -/
def execSampleDelta (s : State) : Host.Outcome State Fault Refusal :=
  .next { raiseDegen .delta s with targets := targetRows s.nAct.toNat s.mAct.toNat (targetDelta s) }

/-- SAMPLE.SINGLE (R107). A tick runs it in SINGLE mode; on its own it runs in every mode. DESIGN CHOICE (log 19). -/
def execSampleSingle (s : State) : Host.Outcome State Fault Refusal :=
  .next { raiseDegen .single s with targets := [[targetSingle s]] }

end Sys2Proof.Machine
end

