-- ==== Sys2Proof/Machine/Scheduler.lean ====
section
/-! DEFINITION. The Scheduler: LATCHCFG, START, CLOSE, TICK, TAU.CLOSE, TAU.STOP, and RESET (R161 to R168, R215). -/

namespace Sys2Proof.Machine

/-! ### The configuration latch (R165) -/

/-- The requested pair is valid (R39): 1 ≤ GRID_N ≤ NMAX and 1 ≤ GRID_M ≤ MMAX. -/
def State.gridValid (s : State) : Bool :=
  decide (1 ≤ s.gridN.toNat ∧ s.gridN.toNat ≤ s.params.nmax ∧ 1 ≤ s.gridM.toNat ∧ s.gridM.toNat ≤ s.params.mmax)

/-- Outside the overlap of the active grid and the requested one (R165). -/
def State.outsideOverlap (s : State) (r c : Nat) : Bool :=
  !decide (r < min s.gridN.toNat s.nAct.toNat ∧ c < min s.gridM.toNat s.mAct.toNat)

/-- LATCHCFG: validate the requested grid, make it active, resize the ControlState (R165). -/
def latchConfig (s : State) : State :=
  if s.gridValid then
    if s.gridN.toNat = s.nAct.toNat ∧ s.gridM.toNat = s.mAct.toNat then s
    else
      { s with
        cells :=
          if s.modeAct = .single then s.cells
          else zeroCells s.params.nmax s.params.mmax s.outsideOverlap s.cells
        nAct := s.gridN.setWidth 8
        mAct := s.gridM.setWidth 8 }
  else raise .badGrid s

/-! ### Host commands -/

/-- START (R161, R201): the checks in the order ST, TRANSPORT_READY, SOURCE_READY. -/
def startBlock (s : State) : State :=
  if s.st ≠ .idle then raise .badCmd s
  else if s.pins.transportReady = false then { raise .noTransport s with st := .stopped }
  else if s.pins.sourceReady = false then s
  else
    { latchConfig { s with modeAct := s.mode, srcHeld := true, txHeld := true } with st := .running }

/-- CLOSE (R162). -/
def requestClose (s : State) : State := { s with closeReq := true }

/-- The state of a full tick after its sampling phase: the grid latched, DEGEN raised if the blocks are degenerate
(R166). -/
def sampled (s : State) : State := raiseDegen s.modeAct (latchConfig { s with busy := true })

/-- The full tick (R166): latch, sample, control, encode and emit, and the frame consumed. -/
def fullTick (s : State) : State :=
  { emitPhase (controlPhase (sampled s) (targetOf s.modeAct (sampled s))) with frameValid := false, busy := false }

/-- TICK (R163, R201): ignored outside RUNNING and after a close request; OVERRUN while BUSY; a skipped tick raises
NOFRAME and does nothing else (R164); otherwise a full tick. -/
def tickBlock (s : State) : State :=
  if s.st ≠ .running then s
  else if s.closeReq then s
  else if s.busy then raise .overrun s
  else if s.frameValid = false then raise .noFrame s
  else fullTick s

/-! ### Internal transitions -/

/-- TAU.CLOSE is enabled (R167). -/
def State.closeEnabled (s : State) : Bool := decide (s.st = .running) && s.closeReq && !s.busy

/-- TAU.STOP is enabled (R168). -/
def State.stopEnabled (s : State) : Bool := decide (s.st = .shutting)

/-- TAU.CLOSE (R167). A transition that is not enabled does not fire. DEDUCED (log 9). -/
def fireClose (s : State) : State := if s.closeEnabled then { s with st := .shutting } else s

/-- TAU.STOP (R168): release the collaborators and stop; CUR and SM are unspecified from here, so the cells take the
free values of the next draw (R25, U5; log 7). A transition that is not enabled does not fire. DEDUCED (log 9). -/
def fireStop (s : State) : State :=
  if s.stopEnabled then
    { s with
      srcHeld := false
      txHeld := false
      st := .stopped
      cells := { fill := .unspecified s.freeCount, cur := [], sm := [] }
      freeCount := s.freeCount + 1 }
  else s

/-! ### Reset -/

/-- RESET (R215, R217): every element at its reset value, but for TX, which keeps what was emitted, and what is not
the block's: the pins, the events still to come, and the model's record of results. FB takes the free values of the
next draw (R50, U6; log 8). -/
def resetBlock (s : State) : State :=
  { State.resetOf s.params with
    tx := s.tx
    pins := s.pins
    pending := s.pending
    rdData := s.rdData
    targets := s.targets
    encValue := s.encValue
    asked := s.asked
    freeCount := s.freeCount + 1
    fbFill := s.freeCount }

/-! ### The operations -/

/-- START (R161). -/
def execStart (s : State) : Host.Outcome State Fault Refusal := .next (startBlock s)

/-- TICK (R163). -/
def execTick (s : State) : Host.Outcome State Fault Refusal := .next (tickBlock s)

/-- CLOSE (R162). -/
def execClose (s : State) : Host.Outcome State Fault Refusal := .next (requestClose s)

/-- LATCHCFG (R165). -/
def execLatchcfg (s : State) : Host.Outcome State Fault Refusal := .next (latchConfig s)

/-- TAU.CLOSE (R167). -/
def execTauClose (s : State) : Host.Outcome State Fault Refusal := .next (fireClose s)

/-- TAU.STOP (R168). -/
def execTauStop (s : State) : Host.Outcome State Fault Refusal := .next (fireStop s)

/-- RESET (R215). -/
def execReset (s : State) : Host.Outcome State Fault Refusal := .next (resetBlock s)

end Sys2Proof.Machine
end

