-- ==== Sys2Proof/Machine/Bus.lean ====
section
/-! DEFINITION. The bus accesses: RDREG, WRREG, WRFB (R157, R158, R160). -/

namespace Sys2Proof.Machine

/-- The word a register reads as (R157). -/
def readReg (r : Reg) (s : State) : Word :=
  match r with
  | .cmd => 0
  | .status => statusWord s
  | .err => s.err.setWidth 32
  | .mode => (modeCode s.mode).setWidth 32
  | .gridN => s.gridN
  | .gridM => s.gridM
  | .kp => s.kp.setWidth 32
  | .smooth => s.smooth.setWidth 32
  | .noise => s.noise.setWidth 32
  | .gap => s.gap.setWidth 32
  | .frameValid => (BitVec.ofBool s.frameValid).setWidth 32
  | .nAct => s.nAct.setWidth 32
  | .mAct => s.mAct.setWidth 32
  | .modeAct => (modeCode s.modeAct).setWidth 32
  | .cellSel => s.cellSel.setWidth 32
  | .cellCur =>
    match s.selected with
    | some rc => (s.cells.curAt rc.1 rc.2).signExtend 32
    | none => 0
  | .cellSm =>
    match s.selected with
    | some rc => (s.cells.smAt rc.1 rc.2).signExtend 32
    | none => 0
  | .glut i => (s.glut[i.val]'i.isLt).setWidth 32
  | .unmapped => 0

/-- A write of the command word to CMD (R35, R158): START, TICK, CLOSE, or BADCMD for a reserved word (R91). -/
def command (v : Word) (s : State) : State :=
  if v = 1 then startBlock s
  else if v = 2 then tickBlock s
  else if v = 3 then requestClose s
  else raise .badCmd s

/-- A write of a register (R158). A refused write changes nothing but ERR.BADWR (R34). -/
def writeReg (r : Reg) (v : Word) (s : State) : State :=
  match r with
  | .cmd => command v s
  | .status => raise .badWr s
  | .err => raise .badWr s
  | .mode =>
    match modeOf v with
    | some m => if s.st = .idle then { s with mode := m } else raise .badWr s
    | none => raise .badWr s
  | .gridN => { s with gridN := v }
  | .gridM => { s with gridM := v }
  | .kp => { s with kp := v.setWidth 16 }
  | .smooth => { s with smooth := v.setWidth 16 }
  | .noise => { s with noise := v.setWidth 16 }
  | .gap => { s with gap := v.setWidth 16 }
  | .frameValid => { s with frameValid := v.getLsbD 0 }
  | .nAct => raise .badWr s
  | .mAct => raise .badWr s
  | .modeAct => raise .badWr s
  | .cellSel => { s with cellSel := v.setWidth 16 }
  | .cellCur => raise .badWr s
  | .cellSm => raise .badWr s
  | .glut i =>
    if s.st = .idle then { s with glut := s.glut.set i.val (v.setWidth 16) i.isLt } else raise .badWr s
  | .unmapped => raise .badWr s

/-- A write of one pixel (R160). -/
def writePixel (a : Nat) (b : Byte) (s : State) : State :=
  if a < s.frameSize then { s with fb := s.fb.write a b } else raise .badWr s

/-- RDREG(n) (R157). The word it returns is left in `rdData`; the block's state does not change (log 11). -/
def execRdreg (n : Word) (s : State) : Host.Outcome State Fault Refusal :=
  .next { s with rdData := readReg (regOf n) s }

/-- WRREG(n, v) (R158). -/
def execWrreg (n v : Word) (s : State) : Host.Outcome State Fault Refusal := .next (writeReg (regOf n) v s)

/-- WRFB(a, b) (R160). -/
def execWrfb (a : Word) (b : Byte) (s : State) : Host.Outcome State Fault Refusal := .next (writePixel a.toNat b s)

end Sys2Proof.Machine
end

