-- ==== Sys2Proof/Machine/Dispatch.lean ====
section
/-! DEFINITION. One arm per operation. -/

namespace Sys2Proof.Machine

def exec (i : Instr) (s : State) : Host.Outcome State Fault Refusal :=
  match i with
  | .start => Sys2Proof.Machine.execStart s
  | .tick => Sys2Proof.Machine.execTick s
  | .close => Sys2Proof.Machine.execClose s
  | .rdreg n => Sys2Proof.Machine.execRdreg n s
  | .wrreg n v => Sys2Proof.Machine.execWrreg n v s
  | .wrfb a b => Sys2Proof.Machine.execWrfb a b s
  | .reset => Sys2Proof.Machine.execReset s
  | .latchcfg => Sys2Proof.Machine.execLatchcfg s
  | .sampleAbs => Sys2Proof.Machine.execSampleAbs s
  | .sampleDelta => Sys2Proof.Machine.execSampleDelta s
  | .sampleSingle => Sys2Proof.Machine.execSampleSingle s
  | .ctrl r c t => Sys2Proof.Machine.execCtrl r c t s
  | .encAbs q => Sys2Proof.Machine.execEncAbs q s
  | .encDelta q => Sys2Proof.Machine.execEncDelta q s
  | .emit r c v => Sys2Proof.Machine.execEmit r c v s
  | .tauClose => Sys2Proof.Machine.execTauClose s
  | .tauStop => Sys2Proof.Machine.execTauStop s
  | .ledcmd row col value => Sys2Proof.Machine.execLedcmd row col value s

end Sys2Proof.Machine
end

