-- ==== Sys2Proof/Machine/Fetch.lean ====
section
/-! DEFINITION. What the next step runs: the head of the total order of events (R16, R70, R155; log 2), or an internal
transition of the block itself (R167, R168, R170; log 10). -/

namespace Sys2Proof.Machine

/-- What the next step is about to do. -/
inductive Fetched where
  /-- Nothing: no event, and no internal transition is enabled (R213). -/
  | quiet
  /-- An operation, in the state it runs in. -/
  | run (i : Instr) (s : State)
  /-- A reserved command word reached CMD (R91). -/
  | reserved (v : Word) (s : State)
  /-- A record that encodes no operation (log 15). -/
  | undecodable (e : DecodeError)

/-- The internal transition that is enabled, if one is. -/
def enabledTau (s : State) : Option Instr :=
  if s.closeEnabled then some .tauClose else if s.stopEnabled then some .tauStop else none

/-- The state in which the head record's operation runs: the record taken, its pin levels on the pins (R45). -/
def takeRecord (rec : Record) (rest : List Record) (s : State) : State :=
  { s with pending := rest, pins := rec.pins }

/-- The next operation: the head record's, or with nothing pending the enabled internal transition (R170). -/
def fetch (s : State) : Fetched :=
  match s.pending with
  | [] =>
    match enabledTau s with
    | some i => .run i s
    | none => .quiet
  | rec :: rest =>
    match decode rec.bytes with
    | .ok i => .run i (takeRecord rec rest s)
    | .error (.reservedCommand v) => .reserved v (takeRecord rec rest s)
    | .error e => .undecodable e

end Sys2Proof.Machine
end

