-- ==== Sys2Proof/Machine/Step.lean ====
section
/-! DEFINITION. One step of the machine, and the placing of an encoded operation as the next event. -/

namespace Sys2Proof.Machine

/-- One step: the next event of the total order, or an enabled internal transition, or nothing (R16, R155, R170). -/
def step (s : State) : Host.Outcome State Fault Refusal :=
  match fetch s with
  | .quiet => .next s
  | .run i s' => exec i s'
  | .reserved v s' => .next (command v s')
  | .undecodable e => .refused (.undecodable e)

/-- The state with an encoded operation, given by its opcode-table word, as the next event, at the present pin levels
(log 2). -/
def State.withFetchWord (s : State) (nbits w : Nat) : State :=
  { s with pending := { pins := s.pins, bytes := layoutWord nbits w } :: s.pending }

end Sys2Proof.Machine
end

