-- ==== Sys2Proof/Safety.lean ====
section
/-! DEFINITION. What a good state of the block is, in the terms the statements use. -/

namespace Sys2Proof.Machine

/-- A record that stands for an event of the block (R155), or for a reserved command word (R91): what the agents
around the block can bring about. Bare micro-operations and command lines are none (R80). -/
def Record.isEvent (rec : Record) : Bool :=
  match decode rec.bytes with
  | .ok i => i.isEvent
  | .error _ => true

/-- The range invariant of the cells (R22): lo ≤ CUR, SM ≤ 65280, with lo by MODE_ACT (R122). -/
def State.CellsInRange (s : State) : Prop :=
  ∀ r c, rangeLo s.modeAct ≤ s.curQ r c ∧ s.curQ r c ≤ qOne ∧ rangeLo s.modeAct ≤ s.smQ r c ∧ s.smQ r c ≤ qOne

/-- The canonical-zero rule (R23): cells outside the control region hold 0. -/
def State.ZeroOutsideRegion (s : State) : Prop :=
  ∀ r c, s.inRegion r c = false → s.curQ r c = 0 ∧ s.smQ r c = 0

/-- A good state. Each field is a rule of the spec about every state between events; the rules about the cells are
claimed up to TAU.STOP, which leaves the cells unspecified (R22, R25). -/
structure Safe (s : State) : Prop where
  /-- The parameters meet their constraints (R7). -/
  params : s.params.wf = true
  /-- The frame buffer is in canonical form. -/
  frameBuffer : s.fb.wf = true
  /-- Only addresses of the frame space are written (R50, R64). -/
  frameSpace : ∀ a, s.fb.read? a ≠ none → a < s.frameSize
  /-- The cell arrays are in canonical form. -/
  cells : s.cells.wf = true
  /-- 1 ≤ N_ACT ≤ NMAX (R39). -/
  rows : 1 ≤ s.nAct.toNat ∧ s.nAct.toNat ≤ s.params.nmax
  /-- 1 ≤ M_ACT ≤ MMAX (R39). -/
  columns : 1 ≤ s.mAct.toNat ∧ s.mAct.toNat ≤ s.params.mmax
  /-- Every event sees BUSY = 0 (R28). -/
  notBusy : s.busy = false
  /-- OVERRUN is never set (R199). -/
  noOverrun : s.hasErr .overrun = false
  /-- SRC_HELD and TX_HELD are 1 exactly in RUNNING and SHUTTING (R46, R161, R168). -/
  held : s.srcHeld = decide (s.st = .running ∨ s.st = .shutting) ∧ s.txHeld = s.srcHeld
  /-- SHUTTING is reached by a close request, which stays (R53, R167). -/
  closing : s.st = .shutting → s.closeReq = true
  /-- In IDLE the mode is ABS and every cell is 0 (R131, R161, R216). -/
  idle : s.st = .idle → s.modeAct = .abs ∧ ∀ r c, s.curQ r c = 0 ∧ s.smQ r c = 0
  /-- Only TAU.STOP leaves the cells unspecified (R25). -/
  specified : s.st ≠ .stopped → s.cells.fill = .zero
  /-- The range invariant (R22, R131). -/
  range : s.cells.fill = .zero → s.CellsInRange
  /-- The canonical-zero rule (R23). -/
  canonicalZero : s.cells.fill = .zero → s.ZeroOutsideRegion
  /-- Only events are to come (R155). -/
  events : ∀ rec ∈ s.pending, rec.isEvent = true

end Sys2Proof.Machine
end

