-- ==== Sys2Proof/Certificates/Slice0/Obligations.lean ====
section
/-! DEFINITION. The statements about the machine, for the provers. Each docstring names the rule of spec/ it formalises,
or says that it states a choice of the model and names its log entry. -/

open Sys2Proof Sys2Proof.Machine

namespace Sys2Proof.Statements

/-- Operations run one after another, stopping where one stops. -/
def runAll : List Instr → State → Host.Outcome State Fault Refusal
  | [], s => .next s
  | i :: is, s =>
    match exec i s with
    | .next t => runAll is t
    | .fault f => .fault f
    | .refused r => .refused r

/-- The SAMPLE operation of a mode (R83). -/
def sampleOp : Mode → Instr
  | .abs => .sampleAbs
  | .delta => .sampleDelta
  | .single => .sampleSingle

/-- The entry of a TargetMatrix for a cell. -/
def targetEntry (rows : List (List Target)) (r c : Nat) : Option Target := rows[r]?.bind fun row => row[c]?

/-- CTRL for every cell of the control region, row-major, with the targets that a SAMPLE operation returned (R166). -/
def ctrlOps (s : State) : List Instr :=
  (List.range s.nc).flatMap fun r => (List.range s.mc).map fun c =>
    .ctrl (byteOf r) (byteOf c) ((targetEntry s.targets r c).getD .skip)

/-- EMIT for every cell of the control region, row-major, with the encoded value of its SM (R145, R166). -/
def emitOps (s : State) : List Instr :=
  (List.range s.nc).flatMap fun r => (List.range s.mc).map fun c =>
    .emit (byteOf r) (byteOf c)
      (BitVec.ofInt 8 (if s.modeAct = .delta then encDeltaOf (s.smQ r c) else encAbsOf (s.smQ r c)))

/-- The frame address of the pixel in row y and column x (R50). -/
def pixelAddr (s : State) (y x : Nat) : Nat := y * s.params.width + x

/-- A full tick runs: ST = RUNNING, no close request, not BUSY, a frame to take (R163, R166). -/
def TickRuns (s : State) : Prop :=
  s.st = .running ∧ s.closeReq = false ∧ s.busy = false ∧ s.frameValid = true

/-- The code of ST that R26 gives each scheduler state. -/
def codeOfSt : SchedState → Nat
  | .idle => 0
  | .running => 1
  | .shutting => 2
  | .stopped => 3

/-- The code of MODE and MODE_ACT that R38 gives each mode. -/
def codeOfMode : Mode → Nat
  | .abs => 0
  | .delta => 1
  | .single => 2

/-- v is the byte that a mode sends for a smoothed output q: s/256 in ABS and SINGLE, (s + 65280)/512 in DELTA, rounded
to the nearest integer, a tie up (R141, R142, R145). -/
def IsSentFor (m : Mode) (q : Int) (v : Byte) : Prop :=
  (m = .delta → 512 * (v.toNat : Int) ≤ q + 65280 + 256 ∧ q + 65280 + 256 < 512 * (v.toNat : Int) + 512) ∧
  (m ≠ .delta → 256 * (v.toNat : Int) ≤ q + 128 ∧ q + 128 < 256 * (v.toNat : Int) + 256)

/-- One command line for each cell of an n × m region, row-major, with the value v gives the cell (R143, R145). -/
def regionLines (n m : Nat) (v : Nat → Nat → Byte) : List Byte :=
  (List.range n).flatMap fun r => (List.range m).flatMap fun c => encode (.ledcmd (byteOf r) (byteOf c) (v r c))

/-- The blocks of the active grid have no height or no width in the mode of the tick (R103). -/
def BlocksDegenerate (s : State) : Prop :=
  s.params.height < s.nAct.toNat ∨
  (s.modeAct ≠ .delta ∧ s.params.width < s.mAct.toNat) ∨
  (s.modeAct = .delta ∧
    (if s.gap.toNat ≤ s.params.width then (s.params.width - s.gap.toNat) / 2 else 0) < s.mAct.toNat)

/-- The requested grid is the active grid, so that LATCHCFG changes nothing (R165). -/
def GridUnchanged (s : State) : Prop :=
  s.gridValid = true ∧ s.gridN.toNat = s.nAct.toNat ∧ s.gridM.toNat = s.mAct.toNat

end Sys2Proof.Statements

open Sys2Proof.Statements

/-! ### Encoding -/

/-- For every well-formed operation, decoding its encoding gives it back, with every operand at every value. The
command word is R81's and the command line R84's, R88's and R95's; every other record is the model's own carrier: the
letter formats (log 3), the bare mode tag read as SAMPLE (log 4) and the byte order (log 16) are its choices. -/
def Obligations.DecodeOfEncodeIsTheOperation : Prop :=
  ∀ i : Instr, i.wellFormed = true → decode (encode i) = .ok i

/-- Each record has one meaning: what decodes is exactly the encoding of what it decodes to, and that is well-formed.
The command word is R81's and the command line R84's, R88's and R95's; every other record is the model's own carrier:
the letter formats (log 3), the bare mode tag read as SAMPLE (log 4) and the byte order (log 16) are its choices. -/
def Obligations.EncodeOfDecodeIsTheRecord : Prop :=
  ∀ (bs : List Byte) (i : Instr), decode bs = .ok i → encode i = bs ∧ i.wellFormed = true

/-- Words written out from the spec: the command words (R81), the mode tags (R83, R92) and a command line (R84). That
a bare mode tag 0, 1 or 2 is read as the SAMPLE operation of its mode is the model's choice (log 4), because R83 gives
the same tag to all eight micro-operations; the byte order of the command words is its choice too (log 16). -/
def Obligations.WordsOfTheSpecDecode : Prop :=
  decode [0x01, 0x00, 0x00, 0x00] = .ok .start ∧ decode [0x02, 0x00, 0x00, 0x00] = .ok .tick ∧
  decode [0x03, 0x00, 0x00, 0x00] = .ok .close ∧ decode [0x00] = .ok .sampleAbs ∧
  decode [0x01] = .ok .sampleDelta ∧ decode [0x02] = .ok .sampleSingle ∧
  decode [0x03] = .error (.reservedModeTag 3) ∧
  decode [0x34, 0x2C, 0x34, 0x2C, 0x32, 0x35, 0x35, 0x0A] = .ok (.ledcmd 4 4 255)

/-- R91: a reserved command word written to CMD changes nothing but ERR.BADCMD. -/
def Obligations.ReservedCommandWordOnlyRaisesBadcmd : Prop :=
  ∀ (v : Word) (s : State), v ≠ 1 → v ≠ 2 → v ≠ 3 → exec (.wrreg 0 v) s = .next { s with err := s.err ||| 0x20 }

/-- The same through the model's records (log 2, log 5, log 15, log 16): the four bytes of a reserved word decode to
no operation, and as the next event they raise BADCMD and change nothing else. -/
def Obligations.ReservedCommandRecordOnlyRaisesBadcmd : Prop :=
  ∀ (v : Word) (s : State), v ≠ 1 → v ≠ 2 → v ≠ 3 →
    decode (bytesOfWord v) = .error (.reservedCommand v) ∧
    ∀ (rec : Record) (rest : List Record), s.pending = rec :: rest → rec.bytes = bytesOfWord v →
      step s = .next { s with pending := rest, pins := rec.pins, err := s.err ||| 0x20 }

/-- R88: `dec` writes the usual decimal numeral, most significant digit first, zero as the single byte 0x30. -/
def Obligations.DecIsTheDecimalNumeral : Prop :=
  dec 0 = [0x30] ∧
  ∀ n, 1 ≤ n → n ≤ 255 → dec n = (Nat.digits 10 n).reverse.map fun d => byteOf (0x30 + d)

/-- R94: a line has 6 to 12 bytes and ends with 0x0A, which occurs nowhere else in it. -/
def Obligations.LineHasOneLineFeedAtItsEnd : Prop :=
  ∀ row col value : Byte,
    6 ≤ (encode (.ledcmd row col value)).length ∧ (encode (.ledcmd row col value)).length ≤ 12 ∧
    ∃ body, encode (.ledcmd row col value) = body ++ [0x0A] ∧ (0x0A : Byte) ∉ body

/-! ### Steps and events -/

/-- A step runs the decoded operation of the head record, in the state with the record taken and its pin levels on the
pins (R16, R45, R70; the list of events is the model's, log 2, and so are the pin levels it carries, log 5). -/
def Obligations.StepRunsTheNextEvent : Prop :=
  ∀ (s : State) (rec : Record) (rest : List Record) (i : Instr), s.pending = rec :: rest →
    decode rec.bytes = .ok i → step s = exec i { s with pending := rest, pins := rec.pins }

/-- With no event to come, an enabled internal transition fires (R167, R168, R170), and otherwise the block does
nothing (R213). The firing order is the model's choice among the schedules of R170 (log 10), and the pins stay as they
were (log 5). -/
def Obligations.QuietStepFiresTheEnabledTransition : Prop :=
  ∀ s : State, s.pending = [] →
    (s.st = .running → s.closeReq = true → s.busy = false → step s = .next { s with st := .shutting }) ∧
    (s.st = .shutting → ∃ t, step s = .next t ∧ t.st = .stopped ∧ t.srcHeld = false ∧ t.txHeld = false) ∧
    (s.st = .idle ∨ s.st = .stopped ∨ (s.st = .running ∧ (s.closeReq = false ∨ s.busy = true)) →
      step s = .next s)

/-- R163, R167, R168, R170: once a close is requested, whatever further events come (reserved command words among
them, no reset), after as many steps as there are events and two more the run has ended in STOPPED, or it began in
IDLE and is still in IDLE, where no transition is enabled; both collaborators are released, and no byte is emitted on
the way. The list of events and the bound on the steps rest on the model's choices (log 2, log 10). -/
def Obligations.CloseAlwaysEndsTheRun : Prop :=
  ∀ s : State, Safe s → s.closeReq = true →
    (∀ rec ∈ s.pending, (∃ i, decode rec.bytes = .ok i ∧ i.isEvent = true ∧ i ≠ .reset) ∨
      ∃ v, decode rec.bytes = .error (.reservedCommand v)) →
    ∃ t, Host.Core.run Sys2Proof.core (s.pending.length + 2) s = .next t ∧
      (t.st = .stopped ∨ (s.st = .idle ∧ t.st = .idle)) ∧
      t.srcHeld = false ∧ t.txHeld = false ∧ t.tx = s.tx

/-! ### Reset -/

/-- R215: the RESET event puts every element at its reset value; R217: it leaves TX and the pins alone, and the
parameters are constants (R7). FB is unspecified, and the model lists nothing of it (log 8). That the events still to
come stay is the model's choice (log 14). -/
def Obligations.ResetEventRestoresEveryElement : Prop :=
  ∀ s : State, ∃ t, exec .reset s = .next t ∧
    (∀ r c, t.curQ r c = 0 ∧ t.smQ r c = 0) ∧
    t.st = .idle ∧ t.busy = false ∧ t.closeReq = false ∧ t.err = 0 ∧ t.srcHeld = false ∧ t.txHeld = false ∧
    t.frameValid = false ∧ t.mode = .abs ∧ t.modeAct = .abs ∧ t.gridN = 5 ∧ t.gridM = 5 ∧ t.nAct = 5 ∧
    t.mAct = 5 ∧ t.kp = 9830 ∧ t.smooth = 52429 ∧ t.noise = 768 ∧ t.gap = s.params.gapReset ∧ t.cellSel = 0 ∧
    t.glut = glutReset ∧ (∀ a, t.fb.read? a = none) ∧
    t.tx = s.tx ∧ t.params = s.params ∧ t.pins = s.pins ∧ t.pending = s.pending

/-- R49: GLUT[0] = 0, and for 1 ≤ i ≤ 255 the reset value g of GLUT[i] is the integer nearest to
65280 × (i/255)^(1/2.2). With 1/2.2 = 5/11, that |g − 65280·(i/255)^(5/11)| < 1/2 says
(2g − 1)^11 · 255^5 < 130560^11 · i^5 < (2g + 1)^11 · 255^5. -/
def Obligations.DefaultTableIsThePowerLaw : Prop :=
  glutAt glutReset 0 = 0 ∧
  ∀ i : Nat, 1 ≤ i → i ≤ 255 →
    (2 * glutAt glutReset i - 1) ^ 11 * 255 ^ 5 < 130560 ^ 11 * (i : Int) ^ 5 ∧
    130560 ^ 11 * (i : Int) ^ 5 < (2 * glutAt glutReset i + 1) ^ 11 * 255 ^ 5

/-- Every instance is in a good state at power-on, the instance of `State.reset` (log 1) among them. That no event is
pending there is the model's choice (log 2). -/
def Obligations.ResetStateIsSafe : Prop :=
  (∀ p : Params, p.wf = true → Safe (State.resetOf p)) ∧ Safe State.reset

/-! ### START and LATCHCFG -/

/-- R161: START outside IDLE raises BADCMD; in IDLE without a transport it is fatal; without a frame source nothing
happens; otherwise MODE is latched, both collaborators are held, LATCHCFG runs and ST becomes RUNNING. -/
def Obligations.StartFollowsItsFourPaths : Prop :=
  ∀ s : State,
    (s.st ≠ .idle → exec .start s = .next { s with err := s.err ||| 0x20 }) ∧
    (s.st = .idle → s.pins.transportReady = false →
      exec .start s = .next { s with err := s.err ||| 0x01, st := .stopped }) ∧
    (s.st = .idle → s.pins.transportReady = true → s.pins.sourceReady = false → exec .start s = .next s) ∧
    (s.st = .idle → s.pins.transportReady = true → s.pins.sourceReady = true →
      ∃ t, exec .latchcfg { s with modeAct := s.mode, srcHeld := true, txHeld := true } = .next t ∧
        exec .start s = .next { t with st := .running })

/-- The example of R161: from the reset state of any instance, with TRANSPORT_READY and SOURCE_READY at 1, START gives
ST = RUNNING, MODE_ACT = 0, N_ACT = M_ACT = 5 and the STATUS word 0x31. The word read is left in `rdData` (log 11). -/
def Obligations.StartFromResetRuns : Prop :=
  ∀ (p : Params) (f : Bool), p.wf = true →
    ∃ t u, exec .start { State.resetOf p with pins := { transportReady := true, sourceReady := true, txFail := f } } =
        .next t ∧
      t.st = .running ∧ t.modeAct = .abs ∧ t.nAct = 5 ∧ t.mAct = 5 ∧ t.err = 0 ∧
      exec (.rdreg 1) t = .next u ∧ u.rdData = 0x31

/-- R165: an invalid request raises BADGRID and changes nothing else; a valid one becomes the active grid; in SINGLE
mode, and when the request is the active grid already, no cell changes; otherwise cells of the arrays in the overlap of
the two grids keep their values and every other cell of the arrays is 0. -/
def Obligations.LatchcfgTakesValidGridsOnly : Prop :=
  ∀ s : State, s.params.wf = true →
    (¬(1 ≤ s.gridN.toNat ∧ s.gridN.toNat ≤ s.params.nmax ∧ 1 ≤ s.gridM.toNat ∧ s.gridM.toNat ≤ s.params.mmax) →
      exec .latchcfg s = .next { s with err := s.err ||| 0x04 }) ∧
    (1 ≤ s.gridN.toNat ∧ s.gridN.toNat ≤ s.params.nmax ∧ 1 ≤ s.gridM.toNat ∧ s.gridM.toNat ≤ s.params.mmax →
      ∃ t, exec .latchcfg s = .next t ∧
        t = { s with nAct := t.nAct, mAct := t.mAct, cells := t.cells } ∧
        t.nAct.toNat = s.gridN.toNat ∧ t.mAct.toNat = s.gridM.toNat ∧
        (s.modeAct = .single → t.cells = s.cells) ∧
        (s.gridN.toNat = s.nAct.toNat → s.gridM.toNat = s.mAct.toNat → t.cells = s.cells) ∧
        (s.modeAct ≠ .single → ¬(s.gridN.toNat = s.nAct.toNat ∧ s.gridM.toNat = s.mAct.toNat) →
          ∀ r c, r < s.params.nmax → c < s.params.mmax →
            if r < s.gridN.toNat ∧ r < s.nAct.toNat ∧ c < s.gridM.toNat ∧ c < s.mAct.toNat
            then t.curQ r c = s.curQ r c ∧ t.smQ r c = s.smQ r c
            else t.curQ r c = 0 ∧ t.smQ r c = 0))

/-- Resize safety (R165 with R23): when the grid only grows, no cell changes, new cells being 0 already. -/
def Obligations.GrowingGridKeepsEveryCell : Prop :=
  ∀ s : State, Safe s → s.cells.fill = .zero → s.gridValid = true → s.nAct.toNat ≤ s.gridN.toNat →
    s.mAct.toNat ≤ s.gridM.toNat →
    ∃ t, exec .latchcfg s = .next t ∧ t.nAct.toNat = s.gridN.toNat ∧ t.mAct.toNat = s.gridM.toNat ∧
      ∀ r c, t.curQ r c = s.curQ r c ∧ t.smQ r c = s.smQ r c

/-! ### Sampler -/

/-- R104: BLOCKSUM is the sum of the rectangle's pixels, at most 255·bh·bw, below 2^40 for any rectangle of a frame;
MEANQ is 256·BLOCKSUM/(bh·bw) rounded to the nearest integer, a tie up, at most 65280, 0 iff 512·sum < bh·bw, and
65280 when every pixel is 255. -/
def Obligations.BlockMeanIsTheNearestInteger : Prop :=
  ∀ (s : State) (y0 x0 bh bw : Nat), 1 ≤ bh → 1 ≤ bw →
    s.blockSum y0 x0 bh bw =
      (∑ j ∈ Finset.range bh, ∑ i ∈ Finset.range bw, (s.pixel (pixelAddr s (y0 + j) (x0 + i))).toNat) ∧
    s.blockSum y0 x0 bh bw ≤ 255 * bh * bw ∧ (bh ≤ 65535 → bw ≤ 65535 → s.blockSum y0 x0 bh bw < 2 ^ 40) ∧
    2 * (bh * bw) * s.meanQ y0 x0 bh bw ≤ 512 * s.blockSum y0 x0 bh bw + bh * bw ∧
    512 * s.blockSum y0 x0 bh bw < 2 * (bh * bw) * s.meanQ y0 x0 bh bw + bh * bw ∧
    s.meanQ y0 x0 bh bw ≤ 65280 ∧
    (s.meanQ y0 x0 bh bw = 0 ↔ 512 * s.blockSum y0 x0 bh bw < bh * bw) ∧
    ((∀ j < bh, ∀ i < bw, s.pixel (pixelAddr s (y0 + j) (x0 + i)) = 255) → s.meanQ y0 x0 bh bw = 65280)

/-- R105 with R101 and R103: SAMPLE.ABS gives every cell of the active grid the mean of its block, or skip with DEGEN
where a block would have no height or no width, and changes nothing else. Leaving the matrix it returns in `targets`
is the model's choice (log 11), and so is running in every mode (log 19). -/
def Obligations.SampleAbsReturnsBlockMeans : Prop :=
  ∀ s : State, 1 ≤ s.nAct.toNat → 1 ≤ s.mAct.toNat →
    ∃ t, exec .sampleAbs s = .next t ∧
      t = { s with
        targets := t.targets
        err := if s.params.height < s.nAct.toNat ∨ s.params.width < s.mAct.toNat then s.err ||| 0x10 else s.err } ∧
      ∀ r c, r < s.nAct.toNat → c < s.mAct.toNat →
        targetEntry t.targets r c = some
          (if s.params.height < s.nAct.toNat ∨ s.params.width < s.mAct.toNat then .skip
          else .value (s.meanQ (r * (s.params.height / s.nAct.toNat)) (c * (s.params.width / s.mAct.toNat))
            (s.params.height / s.nAct.toNat) (s.params.width / s.mAct.toNat)))

/-- R106 with the geometry of R102: SAMPLE.DELTA gives every cell the mean of its right block less the mean of its
left block, or skip with DEGEN where the blocks are degenerate (R103), and changes nothing else. Leaving the matrix it
returns in `targets` is the model's choice (log 11), and so is running in every mode (log 19). -/
def Obligations.SampleDeltaReturnsDifferences : Prop :=
  ∀ (s : State) (hw : Nat), 1 ≤ s.nAct.toNat → 1 ≤ s.mAct.toNat →
    hw = (if s.gap.toNat ≤ s.params.width then (s.params.width - s.gap.toNat) / 2 else 0) →
    ∃ t, exec .sampleDelta s = .next t ∧
      t = { s with
        targets := t.targets
        err := if s.params.height < s.nAct.toNat ∨ hw < s.mAct.toNat then s.err ||| 0x10 else s.err } ∧
      ∀ r c, r < s.nAct.toNat → c < s.mAct.toNat →
        targetEntry t.targets r c = some
          (if s.params.height < s.nAct.toNat ∨ hw < s.mAct.toNat then .skip
          else .value
            ((s.meanQ (r * (s.params.height / s.nAct.toNat)) (hw + s.gap.toNat + c * (hw / s.mAct.toNat))
                (s.params.height / s.nAct.toNat) (hw / s.mAct.toNat) : Int)
              - (s.meanQ (r * (s.params.height / s.nAct.toNat)) (c * (hw / s.mAct.toNat))
                (s.params.height / s.nAct.toNat) (hw / s.mAct.toNat) : Int)))

/-- R107: SAMPLE.SINGLE gives the one reference block's mean, or skip with DEGEN (R103), and changes nothing else.
Leaving the matrix it returns in `targets` is the model's choice (log 11), and so is running in every mode (log 19). -/
def Obligations.SampleSingleReturnsTheReferenceBlock : Prop :=
  ∀ s : State, 1 ≤ s.nAct.toNat → 1 ≤ s.mAct.toNat →
    (s.params.height < s.nAct.toNat ∨ s.params.width < s.mAct.toNat →
      exec .sampleSingle s = .next { s with targets := [[.skip]], err := s.err ||| 0x10 }) ∧
    (s.nAct.toNat ≤ s.params.height → s.mAct.toNat ≤ s.params.width →
      exec .sampleSingle s = .next { s with targets := [[.value
        (s.meanQ 0 0 (s.params.height / s.nAct.toNat) (s.params.width / s.mAct.toNat))]] })

/-- The delta symmetry of R106: when the two sub-regions hold the same pixels and the blocks are not degenerate, every
target is 0 exactly. The targets are read from `targets`, where the model leaves them (log 11), in every mode (log
19). -/
def Obligations.EqualSubRegionsGiveZeroTargets : Prop :=
  ∀ s : State, 1 ≤ s.nAct.toNat → s.nAct.toNat ≤ s.params.height → 1 ≤ s.mAct.toNat → s.mAct.toNat ≤ s.halfW →
    (∀ y x, y < s.params.height → x < s.halfW →
      s.pixel (pixelAddr s y x) = s.pixel (pixelAddr s y (s.halfW + s.gap.toNat + x))) →
    ∃ t, exec .sampleDelta s = .next t ∧
      ∀ r c, r < s.nAct.toNat → c < s.mAct.toNat → targetEntry t.targets r c = some (.value 0)

/-- R109, first part: no address the sampler reads lies outside the frame space, in any mode. -/
def Obligations.SamplerReadsInsideTheFrame : Prop :=
  ∀ (s : State) (r c j i : Nat), r < s.nAct.toNat → c < s.mAct.toNat → j < s.blockH →
    (i < s.blockW → pixelAddr s (r * s.blockH + j) (c * s.blockW + i) < s.frameSize) ∧
    (i < s.blockWDelta →
      pixelAddr s (r * s.blockH + j) (c * s.blockWDelta + i) < s.frameSize ∧
      pixelAddr s (r * s.blockH + j) (s.rightX + c * s.blockWDelta + i) < s.frameSize)

/-- R109, second part: a pixel outside every block has no effect on what a SAMPLE operation gives. What it gives
includes `targets`, where the model leaves the matrix (log 11), in every mode (log 19). -/
def Obligations.PixelsOutsideBlocksHaveNoEffect : Prop :=
  ∀ (s : State) (m : Memory),
    ((∀ y x, y < s.nAct.toNat * s.blockH → x < s.mAct.toNat * s.blockW →
        s.pixel (pixelAddr s y x) = ({ s with fb := m } : State).pixel (pixelAddr s y x)) →
      ∃ t, exec .sampleAbs s = .next t ∧ exec .sampleAbs { s with fb := m } = .next { t with fb := m }) ∧
    ((∀ y x, y < s.blockH → x < s.blockW →
        s.pixel (pixelAddr s y x) = ({ s with fb := m } : State).pixel (pixelAddr s y x)) →
      ∃ t, exec .sampleSingle s = .next t ∧ exec .sampleSingle { s with fb := m } = .next { t with fb := m }) ∧
    ((∀ y x, y < s.nAct.toNat * s.blockH →
        x < s.mAct.toNat * s.blockWDelta ∨ (s.rightX ≤ x ∧ x < s.rightX + s.mAct.toNat * s.blockWDelta) →
        s.pixel (pixelAddr s y x) = ({ s with fb := m } : State).pixel (pixelAddr s y x)) →
      ∃ t, exec .sampleDelta s = .next t ∧ exec .sampleDelta { s with fb := m } = .next { t with fb := m })

/-! ### Control -/

/-- R129: CTRL on a cell of the control region writes that cell by the five steps, from its values before the
operation, and nothing else; with target skip it changes nothing. That a target outside the range R100 gives the mode
goes through the five steps as well is the model's choice (log 21). -/
def Obligations.CtrlWritesItsCellByTheFiveSteps : Prop :=
  ∀ (s : State) (r c : Byte), s.inRegion r.toNat c.toNat = true →
    exec (.ctrl r c .skip) s = .next s ∧
    ∀ q err cur : Int,
      err = (if |q - s.smQ r.toNat c.toNat| < s.noise.toNat then 0 else q - s.smQ r.toNat c.toNat) →
      cur = max (rangeLo s.modeAct) (min 65280 (s.curQ r.toNat c.toNat + (s.kp.toNat * err + 32768) / 65536)) →
      ∃ t, exec (.ctrl r c (.value q)) s = .next t ∧ t = { s with cells := t.cells } ∧
        t.curQ r.toNat c.toNat = cur ∧
        t.smQ r.toNat c.toNat = max (rangeLo s.modeAct) (min 65280
          ((s.smooth.toNat * s.smQ r.toNat c.toNat + (65536 - s.smooth.toNat) * sgam s.glut cur + 32768) / 65536)) ∧
        ∀ r' c', (r', c') ≠ (r.toNat, c.toNat) → t.curQ r' c' = s.curQ r' c' ∧ t.smQ r' c' = s.smQ r' c'

/-- The model's choice (log 12, from R23 and R24): CTRL named on a cell outside the control region changes nothing. -/
def Obligations.CtrlOutsideTheRegionChangesNothing : Prop :=
  ∀ (s : State) (r c : Byte) (t : Target), s.inRegion r.toNat c.toNat = false → exec (.ctrl r c t) s = .next s

/-- R131, for one CTRL: the range invariant is kept, for every table and every register setting, also with a target
outside the range R100 gives the mode (the model's choice, log 21) and on a cell outside the control region (the model's
reading, log 12). -/
def Obligations.CtrlKeepsCellsInRange : Prop :=
  ∀ (s t : State) (r c : Byte) (tgt : Target), s.CellsInRange → exec (.ctrl r c tgt) s = .next t → t.CellsInRange

/-- R121: the order in which two cells are updated cannot be observed, also with targets outside the range R100 gives
the mode (the model's choice, log 21) and on cells outside the control region (the model's reading, log 12). -/
def Obligations.CtrlOfTwoCellsCommutes : Prop :=
  ∀ (s : State) (r c r' c' : Byte) (q q' : Target), (r, c) ≠ (r', c') →
    ∃ s₁ s₂ t₁ t₂, exec (.ctrl r c q) s = .next s₁ ∧ exec (.ctrl r' c' q') s₁ = .next t₁ ∧
      exec (.ctrl r' c' q') s = .next s₂ ∧ exec (.ctrl r c q) s₂ = .next t₂ ∧
      (∀ i j, t₁.curQ i j = t₂.curQ i j ∧ t₁.smQ i j = t₂.smQ i j) ∧
      t₁ = { t₂ with cells := t₁.cells }

/-- R132: under a sub-threshold error CUR is unchanged, and SM is unchanged exactly when
−32768 ≤ (65536 − SMOOTH)·(sgam(CUR) − SM) < 32768. The table's entries are at most 65280, as the default table's are, so
that the output clamp never acts (R128). A target outside the range R100 gives the mode is the model's choice
(log 21). -/
def Obligations.DeadBandHoldsCurAndSettledSm : Prop :=
  ∀ (s : State) (r c : Byte) (q : Int), s.inRegion r.toNat c.toNat = true → s.CellsInRange →
    (∀ i < 256, glutAt s.glut i ≤ 65280) → |q - s.smQ r.toNat c.toNat| < s.noise.toNat →
    ∃ t, exec (.ctrl r c (.value q)) s = .next t ∧ t.curQ r.toNat c.toNat = s.curQ r.toNat c.toNat ∧
      (t.smQ r.toNat c.toNat = s.smQ r.toNat c.toNat ↔
        -32768 ≤ (65536 - s.smooth.toNat) * (sgam s.glut (s.curQ r.toNat c.toNat) - s.smQ r.toNat c.toNat) ∧
        (65536 - s.smooth.toNat) * (sgam s.glut (s.curQ r.toNat c.toNat) - s.smQ r.toNat c.toNat) < 32768)

/-- R126: the lookup gives a table entry at each pixel level and interpolates linearly between two entries, never
leaving the interval between them; any table gives a value of 0..65535, and one with entries of at most 65280 a value of
at most 65280. -/
def Obligations.GammaLookupInterpolates : Prop :=
  ∀ g : Vector Half 256,
    (∀ i, i ≤ 255 → gam g (256 * i) = glutAt g i) ∧
    (∀ i f, i ≤ 254 → f ≤ 255 →
      gam g (256 * i + f) = glutAt g i + ((glutAt g (i + 1) - glutAt g i) * f + 128) / 256 ∧
      min (glutAt g i) (glutAt g (i + 1)) ≤ gam g (256 * i + f) ∧
      gam g (256 * i + f) ≤ max (glutAt g i) (glutAt g (i + 1))) ∧
    (∀ a, a ≤ 65280 → 0 ≤ gam g a ∧ gam g a ≤ 65535 ∧ ((∀ i, i ≤ 255 → glutAt g i ≤ 65280) → gam g a ≤ 65280))

/-- R127: the lookup with the sign put back. At x = 0 both signs read GLUT[0], so oddness is claimed for x ≠ 0. -/
def Obligations.GammaIsSignPreserving : Prop :=
  ∀ (g : Vector Half 256) (x : Int),
    (0 ≤ x → sgam g x = gam g x.toNat) ∧ (x ≠ 0 → sgam g (-x) = -sgam g x) ∧ sgam g 0 = glutAt g 0

/-- R136: the intermediate values of CTRL stay within the stated widths, the product of the gamma interpolation among
them, for a target and cells in range. -/
def Obligations.ControlArithmeticFitsItsWidths : Prop :=
  ∀ (s : State) (r c : Nat) (q : Int), s.CellsInRange → rangeLo s.modeAct ≤ q → q ≤ 65280 →
    |q - s.smQ r c| ≤ 130560 ∧
    |(s.kp.toNat : Int) * gatedError s.noise.toNat q (s.smQ r c)| ≤ 8556249600 ∧
    |rshr (s.kp.toNat * gatedError s.noise.toNat q (s.smQ r c)) 16| ≤ 130558 ∧
    |s.curQ r c + rshr (s.kp.toNat * gatedError s.noise.toNat q (s.smQ r c)) 16| ≤ 195838 ∧
    (∀ i f : Nat, i ≤ 254 → f ≤ 255 → |(glutAt s.glut (i + 1) - glutAt s.glut i) * (f : Int)| ≤ 65535 * 255) ∧
    ∀ x, rangeLo s.modeAct ≤ x → x ≤ 65280 →
      |s.smooth.toNat * s.smQ r c + (65536 - s.smooth.toNat) * sgam s.glut x| ≤ 65536 * 65535

/-! ### Encoder -/

/-- R141: ENC.ABS returns s/256 rounded to the nearest integer, a tie up, always in 0..255. Leaving the result in
`encValue` is the model's choice (log 11), and so is running in every mode (log 19); nothing else changes. -/
def Obligations.EncAbsRoundsToTheNearestValue : Prop :=
  ∀ (s : State) (q : Int), 0 ≤ q → q ≤ 65280 →
    ∃ v : Byte, exec (.encAbs q) s = .next { s with encValue := v } ∧
      256 * (v.toNat : Int) ≤ q + 128 ∧ q + 128 < 256 * (v.toNat : Int) + 256

/-- R142: ENC.DELTA returns (s + 65280)/512 rounded to the nearest integer, a tie up, always in 0..255, with 128 for s
= 0. Leaving the result in `encValue` is the model's choice (log 11), and so is running in every mode (log 19);
nothing else changes. -/
def Obligations.EncDeltaRoundsToTheNearestValue : Prop :=
  ∀ (s : State) (q : Int), -65280 ≤ q → q ≤ 65280 →
    ∃ v : Byte, exec (.encDelta q) s = .next { s with encValue := v } ∧
      512 * (v.toNat : Int) ≤ q + 65280 + 256 ∧ q + 65280 + 256 < 512 * (v.toNat : Int) + 512 ∧
      (q = 0 → v = 128)

/-- R144: EMIT appends the bytes of its line to TX, raises TXFAIL if the pin reported a failure, and changes nothing
else. -/
def Obligations.EmitAppendsItsLine : Prop :=
  ∀ (s : State) (r c v : Byte),
    exec (.emit r c v) s = .next { s with
      tx := s.tx ++ (dec r.toNat ++ [0x2C] ++ dec c.toNat ++ [0x2C] ++ dec v.toNat ++ [0x0A])
      err := if s.pins.txFail = true then s.err ||| 0x08 else s.err }

/-- The model's choice (log 13, from R148; log 20 for a row or column outside the control region): a LEDCMD line
records that its element is asked to take its value, replacing what was asked of that element before, and changes
nothing else. -/
def Obligations.LedcmdRecordsItsRequest : Prop :=
  ∀ (s : State) (row col value : Byte), ∃ t, exec (.ledcmd row col value) s = .next t ∧
    t = { s with asked := t.asked } ∧ listed (row.toNat, col.toNat) t.asked = some value ∧
    ∀ k, k ≠ (row.toNat, col.toNat) → listed k t.asked = listed k s.asked

/-! ### TICK -/

/-- R164: a skipped tick raises NOFRAME and does nothing else. -/
def Obligations.SkippedTickOnlyRaisesNoframe : Prop :=
  ∀ s : State, s.st = .running → s.closeReq = false → s.busy = false → s.frameValid = false →
    exec .tick s = .next { s with err := s.err ||| 0x02 }

/-- R163, R199: a TICK outside RUNNING or after a close request does nothing; a TICK while BUSY raises OVERRUN and does
nothing else. -/
def Obligations.TickIsIgnoredOrOverruns : Prop :=
  ∀ s : State,
    (s.st ≠ .running ∨ s.closeReq = true → exec .tick s = .next s) ∧
    (s.st = .running → s.closeReq = false → s.busy = true → exec .tick s = .next { s with err := s.err ||| 0x80 })

/-- R166: a full tick is LATCHCFG, the SAMPLE operation of the mode, CTRL for each cell of the control region, EMIT
for each cell with the encoded value of its new SM, in this order, and then the frame consumed. Each micro-operation
is run by its own meaning; `targets`, which hands the matrix from SAMPLE to CTRL here, is the model's own result
field, and that a tick leaves it alone is the model's choice (log 11). -/
def Obligations.FullTickIsItsMicroOperations : Prop :=
  ∀ s : State, TickRuns s →
    ∃ s₁ s₂ s₃ s₄, exec .latchcfg s = .next s₁ ∧ exec (sampleOp s₁.modeAct) s₁ = .next s₂ ∧
      runAll (ctrlOps s₂) s₂ = .next s₃ ∧ runAll (emitOps s₃) s₃ = .next s₄ ∧
      exec .tick s = .next { s₄ with frameValid := false, busy := false, targets := s.targets }

/-- R71, R77, R166: a full tick completes; it changes the cells, the active grid, TX, FRAME_VALID (to 0) and of ERR at
most BADGRID, DEGEN and TXFAIL, and nothing else. -/
def Obligations.FullTickChangesOnlyItsOutputs : Prop :=
  ∀ s : State, TickRuns s →
    ∃ t, exec .tick s = .next t ∧
      t = { s with cells := t.cells, nAct := t.nAct, mAct := t.mAct, tx := t.tx, err := t.err, frameValid := false } ∧
      ∀ f : ErrFlag, (s.hasErr f = true → t.hasErr f = true) ∧
        (f ≠ .badGrid → f ≠ .degen → f ≠ .txFail → t.hasErr f = s.hasErr f) ∧
        (t.hasErr .badGrid = true ↔ s.hasErr .badGrid = true ∨ s.gridValid = false)

/-- R143, R145, R95: a full tick appends one line per cell of the control region, row-major, each with its row, its
column and the value of the cell's new SM, rounded to nearest. -/
def Obligations.FullTickEmitsOneLinePerCell : Prop :=
  ∀ s : State, Safe s → TickRuns s →
    ∃ (t : State) (v : Nat → Nat → Byte), exec .tick s = .next t ∧ t.tx = s.tx ++ regionLines t.nc t.mc v ∧
      ∀ r c, r < t.nc → c < t.mc → IsSentFor s.modeAct (t.smQ r c) (v r c)

/-- R103, R130, R143: when the blocks of the grid that LATCHCFG leaves active (state s₁) are degenerate, a full tick
raises DEGEN, keeps every cell as LATCHCFG leaves it, and still emits one line per cell of the control region,
row-major, with the value of its unchanged SM, rounded to nearest. An invalid request and an unchanged one leave every
cell as it was before the tick (R165). -/
def Obligations.DegenerateTickHoldsEveryCell : Prop :=
  ∀ s s₁ : State, Safe s → TickRuns s → exec .latchcfg s = .next s₁ → BlocksDegenerate s₁ →
    ∃ (t : State) (v : Nat → Nat → Byte), exec .tick s = .next t ∧ t.hasErr .degen = true ∧
      (∀ r c, t.curQ r c = s₁.curQ r c ∧ t.smQ r c = s₁.smQ r c) ∧
      t.tx = s.tx ++ regionLines s₁.nc s₁.mc v ∧
      (∀ r c, r < s₁.nc → c < s₁.mc → IsSentFor s.modeAct (s₁.smQ r c) (v r c)) ∧
      (s.gridValid = false ∨ GridUnchanged s → ∀ r c, t.curQ r c = s.curQ r c ∧ t.smQ r c = s.smQ r c)

/-- R134: in DELTA mode with a table that has GLUT[0] = 0, an unchanged grid and blocks that are not degenerate, a
frame whose sub-regions are equal keeps all-zero cells at zero, and the whole tick emits the value 128 for every cell. -/
def Obligations.DeltaSymmetryKeepsTheMidpoint : Prop :=
  ∀ s : State, Safe s → TickRuns s → GridUnchanged s → s.modeAct = .delta → glutAt s.glut 0 = 0 →
    s.nAct.toNat ≤ s.params.height → s.mAct.toNat ≤ s.halfW →
    (∀ r c, s.curQ r c = 0 ∧ s.smQ r c = 0) →
    (∀ y x, y < s.params.height → x < s.halfW →
      s.pixel (pixelAddr s y x) = s.pixel (pixelAddr s y (s.halfW + s.gap.toNat + x))) →
    ∃ t, exec .tick s = .next t ∧ (∀ r c, t.curQ r c = 0 ∧ t.smQ r c = 0) ∧
      t.tx = s.tx ++ regionLines s.nc s.mc fun _ _ => 128

/-! ### CLOSE, TAU.CLOSE, TAU.STOP -/

/-- R162: CLOSE sets CLOSE_REQ and changes nothing else, in every scheduler state. -/
def Obligations.CloseOnlySetsTheRequest : Prop :=
  ∀ s : State, exec .close s = .next { s with closeReq := true }

/-- R163: after a close request no event but RESET emits a byte or clears the request, and outside IDLE none leads to
IDLE or touches a cell other than by TAU.STOP. In IDLE a START can still latch a grid (R161, R165). -/
def Obligations.NoTickRunsAfterClose : Prop :=
  ∀ (s t : State) (i : Instr), s.closeReq = true → i.isEvent = true → i ≠ .reset → exec i s = .next t →
    t.closeReq = true ∧ t.tx = s.tx ∧ (s.st ≠ .idle → t.st ≠ .idle ∧ (i ≠ .tauStop → t.cells = s.cells))

/-- R167: an enabled TAU.CLOSE moves ST to SHUTTING and changes nothing else. -/
def Obligations.TauCloseEntersShutting : Prop :=
  ∀ s : State, s.st = .running → s.closeReq = true → s.busy = false →
    exec .tauClose s = .next { s with st := .shutting }

/-- R168: an enabled TAU.STOP releases both collaborators and stops. The cells are unspecified from here, so nothing is
said of them; the draw of their free values advances the model's own counter (log 7); nothing else changes. -/
def Obligations.TauStopReleasesAndStops : Prop :=
  ∀ s : State, s.st = .shutting →
    ∃ t, exec .tauStop s = .next t ∧
      t = { s with
        srcHeld := false, txHeld := false, st := .stopped, cells := t.cells, freeCount := t.freeCount }

/-- The model's reading (log 9, from R167 and R168): a transition that is not enabled does not fire. -/
def Obligations.DisabledTransitionsDoNotFire : Prop :=
  ∀ s : State,
    (¬(s.st = .running ∧ s.closeReq = true ∧ s.busy = false) → exec .tauClose s = .next s) ∧
    (s.st ≠ .shutting → exec .tauStop s = .next s)

/-! ### Register port and frame port -/

/-- R157 with the codes of R26 and R38 written out: what RDREG returns, for every register number; no state of the
block changes and no flag is set. Leaving the word it returns in `rdData` is the model's choice (log 11). -/
def Obligations.RdregReturnsTheMappedWord : Prop :=
  ∀ (s : State) (n : Word), ∃ v : Word, exec (.rdreg n) s = .next { s with rdData := v } ∧
    (n = 0x000 → v = 0) ∧
    (n = 0x001 → v.toNat = codeOfSt s.st + 4 * s.busy.toNat + 8 * s.closeReq.toNat + 16 * s.srcHeld.toNat
      + 32 * s.txHeld.toNat + 64 * s.frameValid.toNat) ∧
    (n = 0x002 → v.toNat = s.err.toNat) ∧
    (n = 0x003 → v.toNat = codeOfMode s.mode) ∧
    (n = 0x004 → v = s.gridN) ∧ (n = 0x005 → v = s.gridM) ∧
    (n = 0x006 → v.toNat = s.kp.toNat) ∧ (n = 0x007 → v.toNat = s.smooth.toNat) ∧
    (n = 0x008 → v.toNat = s.noise.toNat) ∧ (n = 0x009 → v.toNat = s.gap.toNat) ∧
    (n = 0x00A → v.toNat = s.frameValid.toNat) ∧
    (n = 0x00B → v.toNat = s.nAct.toNat) ∧ (n = 0x00C → v.toNat = s.mAct.toNat) ∧
    (n = 0x00D → v.toNat = codeOfMode s.modeAct) ∧
    (n = 0x00E → v.toNat = s.cellSel.toNat) ∧
    (∀ row col, row = s.cellSel.toNat / 256 → col = s.cellSel.toNat % 256 →
      (n = 0x00F → v.toInt = if row < s.params.nmax ∧ col < s.params.mmax then s.curQ row col else 0) ∧
      (n = 0x010 → v.toInt = if row < s.params.nmax ∧ col < s.params.mmax then s.smQ row col else 0)) ∧
    (∀ i, i ≤ 255 → n.toNat = 0x100 + i → (v.toNat : Int) = glutAt s.glut i) ∧
    (0x010 < n.toNat ∧ n.toNat < 0x100 ∨ 0x1FF < n.toNat → v = 0)

/-- R158, with the codes of R38 written out: what WRREG does, for every register number and every word. -/
def Obligations.WrregWritesTheMappedRegister : Prop :=
  ∀ (s : State) (v : Word),
    exec (.wrreg 0x000 1) s = exec .start s ∧ exec (.wrreg 0x000 2) s = exec .tick s ∧
    exec (.wrreg 0x000 3) s = exec .close s ∧
    (v ≠ 1 → v ≠ 2 → v ≠ 3 → exec (.wrreg 0x000 v) s = .next { s with err := s.err ||| 0x20 }) ∧
    (∀ m, s.st = .idle → v.toNat = codeOfMode m → exec (.wrreg 0x003 v) s = .next { s with mode := m }) ∧
    (s.st ≠ .idle ∨ 2 < v.toNat → exec (.wrreg 0x003 v) s = .next { s with err := s.err ||| 0x40 }) ∧
    exec (.wrreg 0x004 v) s = .next { s with gridN := v } ∧
    exec (.wrreg 0x005 v) s = .next { s with gridM := v } ∧
    exec (.wrreg 0x006 v) s = .next { s with kp := v.extractLsb' 0 16 } ∧
    exec (.wrreg 0x007 v) s = .next { s with smooth := v.extractLsb' 0 16 } ∧
    exec (.wrreg 0x008 v) s = .next { s with noise := v.extractLsb' 0 16 } ∧
    exec (.wrreg 0x009 v) s = .next { s with gap := v.extractLsb' 0 16 } ∧
    exec (.wrreg 0x00A v) s = .next { s with frameValid := v.getLsbD 0 } ∧
    exec (.wrreg 0x00E v) s = .next { s with cellSel := v.extractLsb' 0 16 } ∧
    (∀ (n : Word) (i : Nat) (h : i < 256), n.toNat = 0x100 + i →
      (s.st = .idle → exec (.wrreg n v) s = .next { s with glut := s.glut.set i (v.extractLsb' 0 16) h }) ∧
      (s.st ≠ .idle → exec (.wrreg n v) s = .next { s with err := s.err ||| 0x40 })) ∧
    (∀ n : Word, n ∈ ([0x001, 0x002, 0x00B, 0x00C, 0x00D, 0x00F, 0x010] : List Word) ∨
        (0x010 < n.toNat ∧ n.toNat < 0x100) ∨ 0x1FF < n.toNat →
      exec (.wrreg n v) s = .next { s with err := s.err ||| 0x40 })

/-- R34 (a): a register that keeps 16 bits reads back the low 16 bits of what was written, GRID_N and GRID_M the whole
word, FRAME_VALID the lowest bit, and MODE, written with a mode's code in IDLE, that code (R38). The word read is
taken from `rdData`, where the model leaves it (log 11). -/
def Obligations.WrittenRegistersReadBack : Prop :=
  ∀ (s t u : State) (n v : Word), exec (.wrreg n v) s = .next t → exec (.rdreg n) t = .next u →
    (n = 0x004 ∨ n = 0x005 → u.rdData = v) ∧
    (n = 0x006 ∨ n = 0x007 ∨ n = 0x008 ∨ n = 0x009 ∨ n = 0x00E ∨
        (0x100 ≤ n.toNat ∧ n.toNat ≤ 0x1FF ∧ s.st = .idle) → u.rdData.toNat = v.toNat % 65536) ∧
    (n = 0x00A → u.rdData.toNat = v.toNat % 2) ∧
    (n = 0x003 → s.st = .idle → v.toNat ≤ 2 → u.rdData = v)

/-- R160, R64: a frame-port write stores its byte at its address, every other address reading as before; outside the
frame space it raises BADWR and changes nothing else. -/
def Obligations.WrfbStoresItsByte : Prop :=
  ∀ (s : State) (a : Word) (b : Byte),
    (a.toNat < s.params.height * s.params.width →
      ∃ t, exec (.wrfb a b) s = .next t ∧ t = { s with fb := t.fb } ∧ t.pixel a.toNat = b ∧
        ∀ a', a' ≠ a.toNat → t.pixel a' = s.pixel a') ∧
    (s.params.height * s.params.width ≤ a.toNat → exec (.wrfb a b) s = .next { s with err := s.err ||| 0x40 })

/-! ### The whole machine -/

/-- Every step keeps a good state good: the rules about every state between events (R7, R22, R23, R28, R39, R46, R53,
R199, R216), for every instance, every table, every register setting and every order of events. A good state also has
the model's own canonical forms (log 8) and only events to come (R155; the list is the model's, log 2). -/
def Obligations.StepKeepsSafeStates : Prop := ∀ s t : State, Safe s → step s = .next t → Safe t

/-- R221, R226: whatever the state, a step never stops, unless its next record encodes neither an operation nor a
reserved command word. The records, and that any other is refused, are the model's choices (log 2, log 15). -/
def Obligations.EventsNeverStopTheBlock : Prop :=
  ∀ s : State,
    (∀ rec rest, s.pending = rec :: rest →
      (∃ i, decode rec.bytes = .ok i) ∨ ∃ v, decode rec.bytes = .error (.reservedCommand v)) →
    ∃ t, step s = .next t

/-- R52: bytes once emitted are never retracted, not even by a reset. -/
def Obligations.TxOnlyGrows : Prop := ∀ s t : State, step s = .next t → ∃ bs, t.tx = s.tx ++ bs

/-- R30: an error flag is never cleared by any operation but RESET. -/
def Obligations.ErrorFlagsAreSticky : Prop :=
  ∀ (s t : State) (i : Instr) (f : ErrFlag), i ≠ .reset → exec i s = .next t → s.hasErr f = true → t.hasErr f = true

/-- R156: the transitions of ST, one by one. -/
def Obligations.SchedulerFollowsItsTransitionTable : Prop :=
  ∀ (s t : State) (i : Instr), exec i s = .next t → s.st ≠ t.st →
    (i = .reset ∧ t.st = .idle) ∨
    ((i = .start ∨ i = .wrreg 0 1) ∧ s.st = .idle ∧ s.pins.transportReady = true ∧ s.pins.sourceReady = true ∧
      t.st = .running) ∨
    ((i = .start ∨ i = .wrreg 0 1) ∧ s.st = .idle ∧ s.pins.transportReady = false ∧ t.st = .stopped) ∨
    (i = .tauClose ∧ s.st = .running ∧ s.closeReq = true ∧ t.st = .shutting) ∨
    (i = .tauStop ∧ s.st = .shutting ∧ t.st = .stopped)

/-- R169: in STOPPED no event changes ST, SRC_HELD, TX_HELD or TX except RESET. -/
def Obligations.StoppedIsFinal : Prop :=
  ∀ (s t : State) (i : Instr), s.st = .stopped → i.isEvent = true → i ≠ .reset → exec i s = .next t →
    t.st = .stopped ∧ t.srcHeld = s.srcHeld ∧ t.txHeld = s.txHeld ∧ t.tx = s.tx

/-- R77: no operation but a register write and RESET changes a configuration register; MODE and GLUT change in IDLE or
by RESET only. -/
def Obligations.ConfigurationIsWrittenByTheHostOnly : Prop :=
  ∀ (s t : State) (i : Instr), i ≠ .reset → exec i s = .next t →
    ((∀ n v, i ≠ .wrreg n v) → t.mode = s.mode ∧ t.gridN = s.gridN ∧ t.gridM = s.gridM ∧ t.kp = s.kp ∧
      t.smooth = s.smooth ∧ t.noise = s.noise ∧ t.gap = s.gap ∧ t.cellSel = s.cellSel ∧ t.glut = s.glut) ∧
    (s.st ≠ .idle → t.mode = s.mode ∧ t.glut = s.glut ∧ t.modeAct = s.modeAct)

/-- R7, R45: no operation changes the instance's parameters or the pins; only WRFB and RESET change the frame buffer
(R160, R215). Nor does any change the events still to come: the list is the model's (log 2), and that RESET leaves it
alone is the model's choice (log 14). -/
def Obligations.OperationsKeepInstanceAndInputs : Prop :=
  ∀ (s t : State) (i : Instr), exec i s = .next t →
    t.params = s.params ∧ t.pins = s.pins ∧ t.pending = s.pending ∧
    (i ≠ .reset → (∀ a b, i ≠ .wrfb a b) → t.fb = s.fb ∧ ∀ a, t.pixel a = s.pixel a)
end

