-- ==== Sys2Proof/Laws/Arith.lean ====
section
/-! SUPPORT. The laws of the arithmetic primitives (R12 to R14) and of the cell width (R20, R136). -/

namespace Sys2Proof.Machine

/-- `rshr(x, k)` is the integer nearest to x / 2^k, a tie toward +infinity (R12). -/
theorem rshr_nearest (x : Int) {k : Nat} (hk : 1 ≤ k) :
    2 * (rshr x k * 2 ^ k) ≤ 2 * x + 2 ^ k ∧ 2 * x < 2 * (rshr x k * 2 ^ k) + 2 ^ k := by
  obtain ⟨j, rfl⟩ : ∃ j, k = j + 1 := ⟨k - 1, by omega⟩
  have hpos : (0 : Int) < 2 ^ (j + 1) := by positivity
  have h2 : (2 : Int) ^ (j + 1) = 2 * 2 ^ j := by ring
  have hd := Int.emod_add_mul_ediv (x + 2 ^ j) (2 ^ (j + 1))
  have h0 := Int.emod_nonneg (x + 2 ^ j) hpos.ne'
  have h1 := Int.emod_lt_of_pos (x + 2 ^ j) hpos
  simp only [rshr, Nat.add_sub_cancel]
  constructor <;> linarith [mul_comm ((x + 2 ^ j) / 2 ^ (j + 1)) (2 ^ (j + 1))]

theorem rshr_eight (x : Int) : rshr x 8 = (x + 128) / 256 := rfl

theorem rshr_nine (x : Int) : rshr x 9 = (x + 256) / 512 := rfl

theorem rshr_sixteen (x : Int) : rshr x 16 = (x + 32768) / 65536 := rfl

/-- The value of `clamp` lies in its range (R14). -/
theorem clamp_mem (x : Int) {lo hi : Int} (h : lo ≤ hi) : lo ≤ clamp x lo hi ∧ clamp x lo hi ≤ hi := by
  unfold clamp
  split
  · omega
  · split <;> omega

/-- `clamp` leaves a value of the range as it is (R14). -/
theorem clamp_of_mem {x lo hi : Int} (h₁ : lo ≤ x) (h₂ : x ≤ hi) : clamp x lo hi = x := by
  rw [clamp, if_neg (by omega), if_neg (by omega)]

/-- `divr(a, b)` is the natural nearest to a / b, a tie up (R13). -/
theorem divr_nearest (a : Nat) {b : Nat} (hb : 0 < b) :
    2 * (b * divr a b) ≤ 2 * a + b ∧ 2 * a + b < 2 * (b * divr a b) + 2 * b := by
  have hd := Nat.div_add_mod (2 * a + b) (2 * b)
  have hm := Nat.mod_lt (2 * a + b) (show 0 < 2 * b by omega)
  simp only [divr]
  have e : 2 * b * ((2 * a + b) / (2 * b)) = 2 * (b * ((2 * a + b) / (2 * b))) := by ring
  omega

theorem rangeLo_cases (m : Mode) : rangeLo m = 0 ∨ rangeLo m = -65280 := by
  cases m <;> simp [rangeLo]

/-- An 18-bit cell register holds every q-value exactly (R20, R136). -/
theorem toInt_ofInt_cell {x : Int} (h₁ : -65280 ≤ x) (h₂ : x ≤ 65280) : (BitVec.ofInt 18 x).toInt = x := by
  rw [BitVec.toInt_ofInt]
  exact Int.bmod_eq_of_le (by norm_num; omega) (by norm_num; omega)

end Sys2Proof.Machine
end

