-- ==== Sys2Proof/Laws/Lists.lean ====
section
/-! SUPPORT. The laws of lists of entries with rising keys, which carry FB, the cell arrays and the LEDCMD requests. -/

namespace Sys2Proof.Machine

section Reads
variable {κ α : Type} [DecidableEq κ]

theorem listed_unlist_self (k : κ) (l : List (κ × α)) : listed k (unlist k l) = none := by
  induction l with
  | nil => rfl
  | cons e t ih =>
    obtain ⟨k', v⟩ := e
    by_cases h : k' = k <;> simp [unlist, listed, h, ih]

theorem listed_unlist_other {k k' : κ} (h : k' ≠ k) (l : List (κ × α)) :
    listed k' (unlist k l) = listed k' l := by
  induction l with
  | nil => rfl
  | cons e t ih =>
    obtain ⟨k₁, v⟩ := e
    by_cases h₁ : k₁ = k
    · subst h₁
      simp [unlist, listed, ih, Ne.symm h]
    · simp [unlist, listed, h₁, ih]

theorem listed_insertRising_self (lt : κ → κ → Bool) (k : κ) (v : α) (l : List (κ × α))
    (h : listed k l = none) : listed k (insertRising lt k v l) = some v := by
  induction l with
  | nil => simp [insertRising, listed]
  | cons e t ih =>
    obtain ⟨k', v'⟩ := e
    by_cases hk : k' = k
    · simp [listed, hk] at h
    · have ht : listed k t = none := by simpa [listed, hk] using h
      by_cases hl : lt k k' = true <;> simp [insertRising, listed, hl, hk, ih ht]

theorem listed_insertRising_other (lt : κ → κ → Bool) {k k' : κ} (h : k' ≠ k) (v : α) (l : List (κ × α)) :
    listed k' (insertRising lt k v l) = listed k' l := by
  induction l with
  | nil => simp [insertRising, listed, Ne.symm h]
  | cons e t ih =>
    obtain ⟨k₁, v₁⟩ := e
    by_cases hl : lt k k₁ = true
    · simp [insertRising, listed, hl, Ne.symm h]
    · simp [insertRising, listed, hl, ih]

@[simp] theorem listed_enlist_self (lt : κ → κ → Bool) (k : κ) (v : α) (l : List (κ × α)) :
    listed k (enlist lt k v l) = some v :=
  listed_insertRising_self lt k v _ (listed_unlist_self k l)

theorem listed_enlist_other (lt : κ → κ → Bool) {k k' : κ} (h : k' ≠ k) (v : α) (l : List (κ × α)) :
    listed k' (enlist lt k v l) = listed k' l := by
  rw [enlist, listed_insertRising_other lt h, listed_unlist_other h]

theorem mem_unlist {k : κ} {e : κ × α} {l : List (κ × α)} (h : e ∈ unlist k l) : e ∈ l := by
  induction l with
  | nil => simp [unlist] at h
  | cons e' t ih =>
    obtain ⟨k', v'⟩ := e'
    by_cases hk : k' = k
    · simp only [unlist, hk, if_true] at h
      exact List.mem_cons_of_mem _ (ih h)
    · simp only [unlist, hk, if_false, List.mem_cons] at h
      rcases h with h | h
      · simp [h]
      · exact List.mem_cons_of_mem _ (ih h)

theorem key_ne_of_mem_unlist {k : κ} {e : κ × α} {l : List (κ × α)} (h : e ∈ unlist k l) : e.1 ≠ k := by
  induction l with
  | nil => simp [unlist] at h
  | cons e' t ih =>
    obtain ⟨k', v'⟩ := e'
    by_cases hk : k' = k
    · simp only [unlist, hk, if_true] at h
      exact ih h
    · simp only [unlist, hk, if_false, List.mem_cons] at h
      rcases h with h | h
      · simpa [h] using hk
      · exact ih h

/-- The entry a lookup finds is in the list. -/
theorem mem_of_listed {k : κ} {v : α} {l : List (κ × α)} (h : listed k l = some v) : (k, v) ∈ l := by
  induction l with
  | nil => simp [listed] at h
  | cons e t ih =>
    obtain ⟨k', v'⟩ := e
    by_cases hk : k' = k
    · simp only [listed, hk, if_true, Option.some.injEq] at h
      simp [hk, h]
    · simp only [listed, hk, if_false] at h
      exact List.mem_cons_of_mem _ (ih h)

end Reads

section Rising
variable {κ α : Type}

/-- A strict total order, as far as the canonical form needs it. -/
structure KeyOrder (lt : κ → κ → Bool) : Prop where
  trans : ∀ a b c, lt a b = true → lt b c = true → lt a c = true
  total : ∀ a b, a ≠ b → lt a b = false → lt b a = true

theorem addrLt_keyOrder : KeyOrder addrLt where
  trans a b c := by simp only [addrLt, decide_eq_true_eq]; omega
  total a b := by simp only [addrLt, decide_eq_true_eq, decide_eq_false_iff_not]; omega

theorem cellLt_keyOrder : KeyOrder cellLt where
  trans a b c := by simp only [cellLt, Bool.or_eq_true, Bool.and_eq_true, decide_eq_true_eq]; omega
  total a b hne := by
    obtain ⟨a₁, a₂⟩ := a
    obtain ⟨b₁, b₂⟩ := b
    simp only [ne_eq, Prod.mk.injEq, not_and] at hne
    simp only [cellLt, Bool.or_eq_false_iff, Bool.and_eq_false_iff, decide_eq_false_iff_not, Bool.or_eq_true,
      Bool.and_eq_true, decide_eq_true_eq]
    omega

/-- The head of a rising list is below every later key. -/
theorem rising_head_lt {lt : κ → κ → Bool} (o : KeyOrder lt) {e : κ × α} {t : List (κ × α)}
    (h : rising lt (e :: t) = true) : ∀ e' ∈ t, lt e.1 e'.1 = true := by
  induction t generalizing e with
  | nil => simp
  | cons e₁ t ih =>
    simp only [rising, Bool.and_eq_true] at h
    intro e' he'
    rcases List.mem_cons.1 he' with rfl | he'
    · exact h.1
    · exact o.trans _ _ _ h.1 (ih h.2 e' he')

theorem rising_cons {lt : κ → κ → Bool} {e : κ × α} {t : List (κ × α)}
    (h : ∀ e' ∈ t, lt e.1 e'.1 = true) (ht : rising lt t = true) : rising lt (e :: t) = true := by
  cases t with
  | nil => rfl
  | cons e₁ t => simp [rising, h e₁ (by simp), ht]

theorem rising_tail {lt : κ → κ → Bool} {e : κ × α} {t : List (κ × α)}
    (h : rising lt (e :: t) = true) : rising lt t = true := by
  cases t with
  | nil => rfl
  | cons e₁ t => simp only [rising, Bool.and_eq_true] at h; exact h.2

theorem mem_insertRising {lt : κ → κ → Bool} {k : κ} {v : α} {e : κ × α} {l : List (κ × α)}
    (h : e ∈ insertRising lt k v l) : e = (k, v) ∨ e ∈ l := by
  induction l with
  | nil => simpa [insertRising] using h
  | cons e' t ih =>
    obtain ⟨k', v'⟩ := e'
    by_cases hl : lt k k' = true
    · simpa [insertRising, hl] using h
    · simp only [insertRising, hl, Bool.false_eq_true, if_false, List.mem_cons] at h
      rcases h with h | h
      · exact .inr (by simp [h])
      · exact (ih h).imp id (List.mem_cons_of_mem _)

theorem rising_insertRising {lt : κ → κ → Bool} (o : KeyOrder lt) (k : κ) (v : α) {l : List (κ × α)}
    (hk : ∀ e ∈ l, e.1 ≠ k) (h : rising lt l = true) : rising lt (insertRising lt k v l) = true := by
  induction l with
  | nil => rfl
  | cons e t ih =>
    obtain ⟨k', v'⟩ := e
    by_cases hl : lt k k' = true
    · simp [insertRising, hl, rising, h]
    · simp only [insertRising, hl, Bool.false_eq_true, if_false]
      refine rising_cons (fun e' he' => ?_) (ih (fun e he => hk e (List.mem_cons_of_mem _ he)) (rising_tail h))
      rcases mem_insertRising he' with rfl | he'
      · exact o.total _ _ (Ne.symm (hk (k', v') (by simp))) (by simpa using hl)
      · exact rising_head_lt o h e' he'

variable [DecidableEq κ]

theorem rising_unlist {lt : κ → κ → Bool} (o : KeyOrder lt) (k : κ) {l : List (κ × α)}
    (h : rising lt l = true) : rising lt (unlist k l) = true := by
  induction l with
  | nil => rfl
  | cons e t ih =>
    obtain ⟨k', v'⟩ := e
    by_cases hk : k' = k
    · simpa [unlist, hk] using ih (rising_tail h)
    · simp only [unlist, hk, if_false]
      exact rising_cons (fun e' he' => rising_head_lt o h e' (mem_unlist he')) (ih (rising_tail h))

/-- Replacing or adding one key's value keeps the canonical form. -/
theorem rising_enlist {lt : κ → κ → Bool} (o : KeyOrder lt) (k : κ) (v : α) {l : List (κ × α)}
    (h : rising lt l = true) : rising lt (enlist lt k v l) = true :=
  rising_insertRising o k v (fun _ he => key_ne_of_mem_unlist he) (rising_unlist o k h)

end Rising

end Sys2Proof.Machine
end

