-- ==== Sys2Proof/Laws/Memory.lean ====
section
/-! SUPPORT. The laws of the frame buffer: read after write, and the canonical form kept. -/

namespace Sys2Proof.Machine

@[simp] theorem Memory.read?_write_self (m : Memory) (a : Nat) (b : Byte) : (m.write a b).read? a = some b :=
  listed_enlist_self addrLt a b m

theorem Memory.read?_write_other (m : Memory) {a a' : Nat} (h : a' ≠ a) (b : Byte) :
    (m.write a b).read? a' = m.read? a' :=
  listed_enlist_other addrLt h b m

/-- A frame-port write keeps the canonical form. -/
theorem Memory.wf_write {m : Memory} (h : m.wf = true) (a : Nat) (b : Byte) : (m.write a b).wf = true :=
  rising_enlist addrLt_keyOrder a b h

theorem Memory.wf_nil : Memory.wf [] = true := rfl

/-- The frame buffer of every instance is in canonical form at reset. -/
theorem Memory.wf_reset (p : Params) : (State.resetOf p).fb.wf = true := rfl

end Sys2Proof.Machine
end

