-- ==== Sys2Proof/Laws/Cells.lean ====
section
/-! SUPPORT. The laws of the cell arrays: read after write, the canonical form kept, and what zeroing a rectangle
does. -/

namespace Sys2Proof.Machine

theorem cellAt_cellPut_self (fill : CellFill) (free : Nat → Nat → Nat → CellWord) (l : CellList) (r c : Nat)
    (v : CellWord) : cellAt fill free (cellPut fill l r c v) r c = v := by
  by_cases h : fill = .zero ∧ v = 0
  · rw [cellPut, if_pos h, cellAt, listed_unlist_self, h.1, h.2, fillAt]
  · rw [cellPut, if_neg h, cellAt, listed_enlist_self]

theorem cellAt_cellPut_other (fill : CellFill) (free : Nat → Nat → Nat → CellWord) (l : CellList)
    {r c r' c' : Nat} (hne : (r', c') ≠ (r, c)) (v : CellWord) :
    cellAt fill free (cellPut fill l r c v) r' c' = cellAt fill free l r' c' := by
  by_cases h : fill = .zero ∧ v = 0
  · rw [cellPut, if_pos h, cellAt, cellAt, listed_unlist_other hne]
  · rw [cellPut, if_neg h, cellAt, cellAt, listed_enlist_other cellLt hne]

/-- A cell write keeps the canonical form. -/
theorem cellListWf_cellPut {fill : CellFill} {l : CellList} (h : cellListWf fill l = true) (r c : Nat)
    (v : CellWord) : cellListWf fill (cellPut fill l r c v) = true := by
  simp only [cellListWf, Bool.and_eq_true, Bool.or_eq_true, decide_eq_true_eq, List.all_eq_true] at h ⊢
  obtain ⟨hr, hz⟩ := h
  by_cases hv : fill = .zero ∧ v = 0
  · rw [cellPut, if_pos hv]
    refine ⟨rising_unlist cellLt_keyOrder _ hr, ?_⟩
    rcases hz with hz | hz
    · exact .inl hz
    · exact .inr fun e he => hz e (mem_unlist he)
  · rw [cellPut, if_neg hv]
    refine ⟨rising_enlist cellLt_keyOrder _ _ hr, ?_⟩
    rcases hz with hz | hz
    · exact .inl hz
    · by_cases hf : fill = .zero
      · refine .inr fun e he => ?_
        rcases mem_insertRising he with rfl | he
        · exact fun h0 => hv ⟨hf, h0⟩
        · exact hz e (mem_unlist he)
      · exact .inl hf

@[simp] theorem Cells.fill_put (cs : Cells) (r c : Nat) (u v : CellWord) : (cs.put r c u v).fill = cs.fill := rfl

@[simp] theorem Cells.curAt_put_self (cs : Cells) (r c : Nat) (u v : CellWord) : (cs.put r c u v).curAt r c = u :=
  cellAt_cellPut_self _ _ _ _ _ _

@[simp] theorem Cells.smAt_put_self (cs : Cells) (r c : Nat) (u v : CellWord) : (cs.put r c u v).smAt r c = v :=
  cellAt_cellPut_self _ _ _ _ _ _

theorem Cells.curAt_put_other (cs : Cells) {r c r' c' : Nat} (h : (r', c') ≠ (r, c)) (u v : CellWord) :
    (cs.put r c u v).curAt r' c' = cs.curAt r' c' :=
  cellAt_cellPut_other _ _ _ h _

theorem Cells.smAt_put_other (cs : Cells) {r c r' c' : Nat} (h : (r', c') ≠ (r, c)) (u v : CellWord) :
    (cs.put r c u v).smAt r' c' = cs.smAt r' c' :=
  cellAt_cellPut_other _ _ _ h _

/-- A write of one cell keeps the canonical form of both arrays. -/
theorem Cells.wf_put {cs : Cells} (h : cs.wf = true) (r c : Nat) (u v : CellWord) : (cs.put r c u v).wf = true := by
  simp only [Cells.wf, Bool.and_eq_true] at h ⊢
  exact ⟨cellListWf_cellPut h.1 r c u, cellListWf_cellPut h.2 r c v⟩

/-! ### The order of the cells -/

@[simp] theorem mem_cellOrder {n m : Nat} {rc : Nat × Nat} : rc ∈ cellOrder n m ↔ rc.1 < n ∧ rc.2 < m := by
  obtain ⟨r, c⟩ := rc
  simp [cellOrder]

/-- Each cell of a rectangle stands once in its order. -/
theorem nodup_cellOrder (n m : Nat) : (cellOrder n m).Nodup := by
  refine List.nodup_flatMap.2 ⟨fun r _ => List.nodup_range.map fun c c' h => ?_, ?_⟩
  · simpa using h
  · refine List.nodup_range.imp ?_
    intro r r' hne x hx hx'
    simp only [List.mem_map, List.mem_range] at hx hx'
    obtain ⟨_, _, rfl⟩ := hx
    obtain ⟨_, _, h⟩ := hx'
    simp only [Prod.mk.injEq] at h
    exact hne h.1.symm

theorem length_cellOrder (n m : Nat) : (cellOrder n m).length = n * m := by
  simp [cellOrder, List.length_flatMap]

/-! ### Zeroing -/

theorem zeroFold_spec (sel : Nat → Nat → Bool) (l : List (Nat × Nat)) (cs : Cells) (r c : Nat) :
    let f := fun (cs : Cells) (rc : Nat × Nat) => if sel rc.1 rc.2 then cs.put rc.1 rc.2 0 0 else cs
    (l.foldl f cs).curAt r c = (if (r, c) ∈ l ∧ sel r c = true then 0 else cs.curAt r c) ∧
    (l.foldl f cs).smAt r c = (if (r, c) ∈ l ∧ sel r c = true then 0 else cs.smAt r c) := by
  intro f
  induction l generalizing cs with
  | nil => simp
  | cons e t ih =>
    obtain ⟨r₁, c₁⟩ := e
    simp only [List.foldl_cons, List.mem_cons]
    obtain ⟨h₁, h₂⟩ := ih (f cs (r₁, c₁))
    rw [h₁, h₂]
    by_cases he : (r, c) = (r₁, c₁)
    · obtain ⟨rfl, rfl⟩ := Prod.mk.inj he
      by_cases hs : sel r c = true <;> simp [f, hs]
    · by_cases hs : sel r₁ c₁ = true
      · simp [f, hs, he, Cells.curAt_put_other _ he, Cells.smAt_put_other _ he]
      · simp [f, hs, he]

/-- What zeroing does to a cell: 0 if it lies in the rectangle and is selected, and its old value otherwise. -/
theorem zeroCells_spec (n m : Nat) (sel : Nat → Nat → Bool) (cs : Cells) (r c : Nat) :
    (zeroCells n m sel cs).curAt r c = (if (r < n ∧ c < m) ∧ sel r c = true then 0 else cs.curAt r c) ∧
    (zeroCells n m sel cs).smAt r c = (if (r < n ∧ c < m) ∧ sel r c = true then 0 else cs.smAt r c) := by
  simpa [zeroCells] using zeroFold_spec sel (cellOrder n m) cs r c

@[simp] theorem fill_zeroCells (n m : Nat) (sel : Nat → Nat → Bool) (cs : Cells) :
    (zeroCells n m sel cs).fill = cs.fill := by
  rw [zeroCells]
  induction cellOrder n m generalizing cs with
  | nil => rfl
  | cons e t ih => rw [List.foldl_cons, ih]; split <;> rfl

theorem wf_zeroCells (n m : Nat) (sel : Nat → Nat → Bool) {cs : Cells} (h : cs.wf = true) :
    (zeroCells n m sel cs).wf = true := by
  rw [zeroCells]
  induction cellOrder n m generalizing cs with
  | nil => exact h
  | cons e t ih =>
    rw [List.foldl_cons]
    refine ih ?_
    split
    · exact Cells.wf_put h _ _ _ _
    · exact h

end Sys2Proof.Machine
end

