-- ==== Sys2Proof/Laws/Control.lean ====
section
/-! SUPPORT. What CTRL and the control phase do, cell by cell (R121, R129, R131). -/

namespace Sys2Proof.Machine

@[simp] theorem fill_ctrlCell (s : State) (r c : Nat) (t : Target) (cs : Cells) :
    (ctrlCell s r c t cs).fill = cs.fill := by
  cases t <;> rfl

theorem wf_ctrlCell (s : State) (r c : Nat) (t : Target) {cs : Cells} (h : cs.wf = true) :
    (ctrlCell s r c t cs).wf = true := by
  cases t
  · exact h
  · exact Cells.wf_put h _ _ _ _

/-- CTRL of one cell leaves every other cell as it is (R121). -/
theorem ctrlCell_other (s : State) {r c r' c' : Nat} (h : (r', c') ≠ (r, c)) (t : Target) (cs : Cells) :
    (ctrlCell s r c t cs).curAt r' c' = cs.curAt r' c' ∧ (ctrlCell s r c t cs).smAt r' c' = cs.smAt r' c' := by
  cases t
  · exact ⟨rfl, rfl⟩
  · exact ⟨Cells.curAt_put_other _ h _ _, Cells.smAt_put_other _ h _ _⟩

/-- The new value of a cell depends on its own old value only (R121). -/
theorem ctrlCell_local (s : State) (r c : Nat) (t : Target) {cs cs' : Cells}
    (h₁ : cs.curAt r c = cs'.curAt r c) (h₂ : cs.smAt r c = cs'.smAt r c) :
    (ctrlCell s r c t cs).curAt r c = (ctrlCell s r c t cs').curAt r c ∧
    (ctrlCell s r c t cs).smAt r c = (ctrlCell s r c t cs').smAt r c := by
  cases t
  · exact ⟨h₁, h₂⟩
  · simp [ctrlCell, h₁, h₂]

theorem nextCur_mem (kp : Nat) {lo : Int} (h : lo ≤ qOne) (cur err : Int) :
    lo ≤ nextCur kp lo cur err ∧ nextCur kp lo cur err ≤ qOne :=
  clamp_mem _ h

theorem nextSm_mem (smooth : Nat) {lo : Int} (h : lo ≤ qOne) (sm cor : Int) :
    lo ≤ nextSm smooth lo sm cor ∧ nextSm smooth lo sm cor ≤ qOne :=
  clamp_mem _ h

/-- The values CTRL writes lie in the configured range, whatever the table and the registers hold (R125, R128, R131). -/
theorem ctrlUpdate_mem (s : State) (t cur sm : Int) :
    (rangeLo s.modeAct ≤ (ctrlUpdate s t cur sm).1 ∧ (ctrlUpdate s t cur sm).1 ≤ qOne) ∧
    (rangeLo s.modeAct ≤ (ctrlUpdate s t cur sm).2 ∧ (ctrlUpdate s t cur sm).2 ≤ qOne) := by
  have h : rangeLo s.modeAct ≤ qOne := by rcases rangeLo_cases s.modeAct with h | h <;> simp [h, qOne]
  exact ⟨nextCur_mem _ h _ _, nextSm_mem _ h _ _⟩

/-- The cell registers hold the values of R129 exactly. -/
theorem ctrlCell_value (s : State) (r c : Nat) (q : Int) (cs : Cells) :
    ((ctrlCell s r c (.value q) cs).curAt r c).toInt
      = (ctrlUpdate s q (cs.curAt r c).toInt (cs.smAt r c).toInt).1 ∧
    ((ctrlCell s r c (.value q) cs).smAt r c).toInt
      = (ctrlUpdate s q (cs.curAt r c).toInt (cs.smAt r c).toInt).2 := by
  have h := ctrlUpdate_mem s q (cs.curAt r c).toInt (cs.smAt r c).toInt
  have hl : -65280 ≤ rangeLo s.modeAct := by rcases rangeLo_cases s.modeAct with h | h <;> simp [h]
  simp only [ctrlCell, Cells.curAt_put_self, Cells.smAt_put_self]
  exact ⟨toInt_ofInt_cell (by omega) h.1.2, toInt_ofInt_cell (by omega) h.2.2⟩

/-- What a pass of CTRL over distinct cells does to one cell. -/
theorem controlFold_spec (s : State) (tgt : Nat → Nat → Target) (l : List (Nat × Nat)) (hl : l.Nodup) (cs : Cells)
    (r c : Nat) :
    let out := l.foldl (fun cs rc => ctrlCell s rc.1 rc.2 (tgt rc.1 rc.2) cs) cs
    let one := if (r, c) ∈ l then ctrlCell s r c (tgt r c) cs else cs
    out.curAt r c = one.curAt r c ∧ out.smAt r c = one.smAt r c := by
  induction l generalizing cs with
  | nil => simp
  | cons e t ih =>
    obtain ⟨r₁, c₁⟩ := e
    simp only [List.nodup_cons] at hl
    obtain ⟨h₁, h₂⟩ := ih hl.2 (ctrlCell s r₁ c₁ (tgt r₁ c₁) cs)
    simp only [List.foldl_cons, List.mem_cons]
    rw [h₁, h₂]
    by_cases he : (r, c) = (r₁, c₁)
    · obtain ⟨rfl, rfl⟩ := Prod.mk.inj he
      simp [hl.1]
    · obtain ⟨k₁, k₂⟩ := ctrlCell_other s he (tgt r₁ c₁) cs
      by_cases hm : (r, c) ∈ t
      · simpa [hm] using ctrlCell_local s r c (tgt r c) k₁ k₂
      · simpa [hm, he] using ⟨k₁, k₂⟩

/-- The control phase updates each cell of the control region once, and no other cell (R129, R166). -/
theorem controlPhase_spec (s : State) (tgt : Nat → Nat → Target) (r c : Nat) :
    let one := if s.inRegion r c then ctrlCell s r c (tgt r c) s.cells else s.cells
    (controlPhase s tgt).cells.curAt r c = one.curAt r c ∧ (controlPhase s tgt).cells.smAt r c = one.smAt r c := by
  have h := controlFold_spec s tgt s.region (nodup_cellOrder _ _) s.cells r c
  simpa [controlPhase, State.region, State.inRegion] using h

@[simp] theorem fill_controlPhase (s : State) (tgt : Nat → Nat → Target) :
    (controlPhase s tgt).cells.fill = s.cells.fill := by
  show (s.region.foldl _ s.cells).fill = _
  generalize s.cells = cs
  induction s.region generalizing cs with
  | nil => rfl
  | cons e t ih => rw [List.foldl_cons, ih, fill_ctrlCell]

theorem wf_controlPhase (s : State) (tgt : Nat → Nat → Target) (h : s.cells.wf = true) :
    (controlPhase s tgt).cells.wf = true := by
  show (s.region.foldl _ s.cells).wf = true
  revert h
  generalize s.cells = cs
  induction s.region generalizing cs with
  | nil => exact id
  | cons e t ih => exact fun h => ih _ (wf_ctrlCell s _ _ _ h)

/-! ### The control region (R23) -/

theorem State.nc_single {s : State} (h : s.modeAct = .single) : s.nc = 1 ∧ s.mc = 1 := by
  simp [State.nc, State.mc, h]

theorem State.nc_grid {s : State} (h : s.modeAct ≠ .single) : s.nc = s.nAct.toNat ∧ s.mc = s.mAct.toNat := by
  unfold State.nc State.mc
  cases hm : s.modeAct with
  | abs => exact ⟨rfl, rfl⟩
  | delta => exact ⟨rfl, rfl⟩
  | single => exact absurd hm h

theorem State.inRegion_iff {s : State} {r c : Nat} : s.inRegion r c = true ↔ r < s.nc ∧ c < s.mc := by
  simp [State.inRegion]

end Sys2Proof.Machine
end

