-- ==== Sys2Proof/Laws/Decode.lean ====
section
/-! SUPPORT. The laws of bytes, words, decimal text and command lines. -/

namespace Sys2Proof

@[simp] theorem length_bytesOf (k w : Nat) : (bytesOf k w).length = k := by
  induction k generalizing w with
  | zero => rfl
  | succ k ih => simp [bytesOf, ih]

theorem natOfBytes_bytesOf (k w : Nat) : natOfBytes (bytesOf k w) = w % 256 ^ k := by
  induction k generalizing w with
  | zero => simp [bytesOf, natOfBytes, Nat.mod_one]
  | succ k ih =>
    have h : (byteOf w).toNat = w % 256 := by simp [byteOf]
    rw [bytesOf, natOfBytes, ih, h, pow_succ, mul_comm (256 ^ k) 256, Nat.mod_mul]

theorem bytesOfWord_eq (w : Word) :
    bytesOfWord w = [byteOf w.toNat, byteOf (w.toNat / 256), byteOf (w.toNat / 256 / 256),
      byteOf (w.toNat / 256 / 256 / 256)] := rfl

/-- The bytes of a word give the word back. -/
@[simp] theorem wordOf_bytesOfWord (w : Word) : wordOf (bytesOfWord w) = w := by
  apply BitVec.eq_of_toNat_eq
  rw [wordOf, bytesOfWord, natOfBytes_bytesOf, BitVec.toNat_ofNat]
  have := w.isLt
  omega

/-- A q-value's bytes give it back. -/
theorem qOf_bytesOfQ {q : Int} (h : qInRange q = true) : qOf (bytesOfQ q) = q := by
  simp only [qInRange, decide_eq_true_eq, qOne] at h
  rw [qOf, bytesOfQ, wordOf_bytesOfWord, BitVec.toInt_ofInt]
  exact Int.bmod_eq_of_le (by norm_num; omega) (by norm_num; omega)

theorem toNat_byteOf {n : Nat} (h : n < 256) : (byteOf n).toNat = n := by
  simp [byteOf, Nat.mod_eq_of_lt h]

@[simp] theorem byteOf_toNat (b : Byte) : byteOf b.toNat = b := by simp [byteOf]

/-- The byte 0x30 + d is the digit d (R88). -/
theorem digitOf_byteOf {d : Nat} (h : d ≤ 9) : digitOf (byteOf (0x30 + d)) = some d := by
  have e : (byteOf (0x30 + d)).toNat = 0x30 + d := toNat_byteOf (by omega)
  rw [digitOf, e, if_pos (by omega)]
  congr 1
  omega

theorem digitOf_comma : digitOf comma = none := by decide

theorem digitOf_lineFeed : digitOf lineFeed = none := by decide

/-- Reading a number gives back the number that was written (R88, R95). -/
theorem takeNumber_dec {n : Nat} (hn : n ≤ 255) {b : Byte} (hb : digitOf b = none) (t : List Byte) :
    takeNumber (dec n ++ b :: t) = some (n, b :: t) := by
  unfold dec
  split
  · have h₁ := digitOf_byteOf (d := n / 100) (by omega)
    have h₂ := digitOf_byteOf (d := n / 10 % 10) (by omega)
    have h₃ := digitOf_byteOf (d := n % 10) (by omega)
    have h₄ : ¬ n / 100 = 0 := by omega
    have h₅ : 100 * (n / 100) + 10 * (n / 10 % 10) + n % 10 = n := by omega
    simp [takeNumber, h₁, h₂, h₃, h₄, h₅, hn]
  · split
    · have h₁ := digitOf_byteOf (d := n / 10) (by omega)
      have h₂ := digitOf_byteOf (d := n % 10) (by omega)
      have h₄ : ¬ n / 10 = 0 := by omega
      have h₅ : 10 * (n / 10) + n % 10 = n := by omega
      simp [takeNumber, h₁, h₂, h₄, h₅, hb]
    · have h₁ := digitOf_byteOf (d := n) (by omega)
      by_cases h₀ : n = 0
      · subst h₀
        simp [takeNumber, h₁]
      · simp [takeNumber, h₁, h₀, hb]

theorem takeByte_self (b : Byte) (t : List Byte) : takeByte b (b :: t) = some t := by simp [takeByte]

/-- Reading a line gives back the Command that was written, and leaves what follows it (R84, R94, R95). -/
theorem takeLine_ledLine {r c v : Nat} (hr : r ≤ 255) (hc : c ≤ 255) (hv : v ≤ 255) (rest : List Byte) :
    takeLine (ledLine r c v ++ rest) = some ((r, c, v), rest) := by
  have e : ledLine r c v ++ rest
      = dec r ++ comma :: (dec c ++ comma :: (dec v ++ lineFeed :: rest)) := by simp [ledLine]
  simp [e, takeLine, takeNumber_dec hr digitOf_comma, takeNumber_dec hc digitOf_comma,
    takeNumber_dec hv digitOf_lineFeed, takeByte_self]

theorem length_dec (n : Nat) : 1 ≤ (dec n).length ∧ (dec n).length ≤ 3 := by
  unfold dec
  split
  · simp
  · split <;> simp

/-- A line has 6 to 12 bytes (R94). -/
theorem length_ledLine (r c v : Nat) : 6 ≤ (ledLine r c v).length ∧ (ledLine r c v).length ≤ 12 := by
  have h₁ := length_dec r
  have h₂ := length_dec c
  have h₃ := length_dec v
  simp only [ledLine, List.length_append, List.length_cons, List.length_nil]
  omega

/-- Every byte of a number is a digit (R84, R88). -/
theorem mem_dec {n : Nat} (hn : n ≤ 255) {b : Byte} (h : b ∈ dec n) : (digitOf b).isSome = true := by
  unfold dec at h
  split at h
  · simp only [List.mem_cons, List.not_mem_nil, or_false] at h
    rcases h with rfl | rfl | rfl
    · rw [digitOf_byteOf (by omega)]; rfl
    · rw [digitOf_byteOf (by omega)]; rfl
    · rw [digitOf_byteOf (by omega)]; rfl
  · split at h
    · simp only [List.mem_cons, List.not_mem_nil, or_false] at h
      rcases h with rfl | rfl
      · rw [digitOf_byteOf (by omega)]; rfl
      · rw [digitOf_byteOf (by omega)]; rfl
    · simp only [List.mem_cons, List.not_mem_nil, or_false] at h
      subst h
      rw [digitOf_byteOf (by omega)]; rfl

end Sys2Proof
end

