-- ==== Sys2Proof/Laws/State.lean ====
section
/-! SUPPORT. One lemma per field per named update of the state, each true by rfl. -/

namespace Sys2Proof.Machine

/-! ### raise -/

@[simp] theorem raise_params (f : ErrFlag) (s : State) : (raise f s).params = s.params := rfl
@[simp] theorem raise_cells (f : ErrFlag) (s : State) : (raise f s).cells = s.cells := rfl
@[simp] theorem raise_st (f : ErrFlag) (s : State) : (raise f s).st = s.st := rfl
@[simp] theorem raise_busy (f : ErrFlag) (s : State) : (raise f s).busy = s.busy := rfl
@[simp] theorem raise_closeReq (f : ErrFlag) (s : State) : (raise f s).closeReq = s.closeReq := rfl
@[simp] theorem raise_srcHeld (f : ErrFlag) (s : State) : (raise f s).srcHeld = s.srcHeld := rfl
@[simp] theorem raise_txHeld (f : ErrFlag) (s : State) : (raise f s).txHeld = s.txHeld := rfl
@[simp] theorem raise_frameValid (f : ErrFlag) (s : State) : (raise f s).frameValid = s.frameValid := rfl
@[simp] theorem raise_err (f : ErrFlag) (s : State) : (raise f s).err = setErr s.err f := rfl
@[simp] theorem raise_mode (f : ErrFlag) (s : State) : (raise f s).mode = s.mode := rfl
@[simp] theorem raise_modeAct (f : ErrFlag) (s : State) : (raise f s).modeAct = s.modeAct := rfl
@[simp] theorem raise_gridN (f : ErrFlag) (s : State) : (raise f s).gridN = s.gridN := rfl
@[simp] theorem raise_gridM (f : ErrFlag) (s : State) : (raise f s).gridM = s.gridM := rfl
@[simp] theorem raise_nAct (f : ErrFlag) (s : State) : (raise f s).nAct = s.nAct := rfl
@[simp] theorem raise_mAct (f : ErrFlag) (s : State) : (raise f s).mAct = s.mAct := rfl
@[simp] theorem raise_kp (f : ErrFlag) (s : State) : (raise f s).kp = s.kp := rfl
@[simp] theorem raise_smooth (f : ErrFlag) (s : State) : (raise f s).smooth = s.smooth := rfl
@[simp] theorem raise_noise (f : ErrFlag) (s : State) : (raise f s).noise = s.noise := rfl
@[simp] theorem raise_gap (f : ErrFlag) (s : State) : (raise f s).gap = s.gap := rfl
@[simp] theorem raise_cellSel (f : ErrFlag) (s : State) : (raise f s).cellSel = s.cellSel := rfl
@[simp] theorem raise_glut (f : ErrFlag) (s : State) : (raise f s).glut = s.glut := rfl
@[simp] theorem raise_fb (f : ErrFlag) (s : State) : (raise f s).fb = s.fb := rfl
@[simp] theorem raise_tx (f : ErrFlag) (s : State) : (raise f s).tx = s.tx := rfl
@[simp] theorem raise_pins (f : ErrFlag) (s : State) : (raise f s).pins = s.pins := rfl
@[simp] theorem raise_pending (f : ErrFlag) (s : State) : (raise f s).pending = s.pending := rfl
@[simp] theorem raise_rdData (f : ErrFlag) (s : State) : (raise f s).rdData = s.rdData := rfl
@[simp] theorem raise_targets (f : ErrFlag) (s : State) : (raise f s).targets = s.targets := rfl
@[simp] theorem raise_encValue (f : ErrFlag) (s : State) : (raise f s).encValue = s.encValue := rfl
@[simp] theorem raise_asked (f : ErrFlag) (s : State) : (raise f s).asked = s.asked := rfl
@[simp] theorem raise_freeCount (f : ErrFlag) (s : State) : (raise f s).freeCount = s.freeCount := rfl
@[simp] theorem raise_fbFill (f : ErrFlag) (s : State) : (raise f s).fbFill = s.fbFill := rfl

/-! ### emitBytes -/

@[simp] theorem emitBytes_params (bs : List Byte) (s : State) : (emitBytes bs s).params = s.params := rfl
@[simp] theorem emitBytes_cells (bs : List Byte) (s : State) : (emitBytes bs s).cells = s.cells := rfl
@[simp] theorem emitBytes_st (bs : List Byte) (s : State) : (emitBytes bs s).st = s.st := rfl
@[simp] theorem emitBytes_busy (bs : List Byte) (s : State) : (emitBytes bs s).busy = s.busy := rfl
@[simp] theorem emitBytes_closeReq (bs : List Byte) (s : State) : (emitBytes bs s).closeReq = s.closeReq := rfl
@[simp] theorem emitBytes_srcHeld (bs : List Byte) (s : State) : (emitBytes bs s).srcHeld = s.srcHeld := rfl
@[simp] theorem emitBytes_txHeld (bs : List Byte) (s : State) : (emitBytes bs s).txHeld = s.txHeld := rfl
@[simp] theorem emitBytes_frameValid (bs : List Byte) (s : State) : (emitBytes bs s).frameValid = s.frameValid := rfl
@[simp] theorem emitBytes_err (bs : List Byte) (s : State) : (emitBytes bs s).err = (if s.pins.txFail && !bs.isEmpty then setErr s.err .txFail else s.err) := rfl
@[simp] theorem emitBytes_mode (bs : List Byte) (s : State) : (emitBytes bs s).mode = s.mode := rfl
@[simp] theorem emitBytes_modeAct (bs : List Byte) (s : State) : (emitBytes bs s).modeAct = s.modeAct := rfl
@[simp] theorem emitBytes_gridN (bs : List Byte) (s : State) : (emitBytes bs s).gridN = s.gridN := rfl
@[simp] theorem emitBytes_gridM (bs : List Byte) (s : State) : (emitBytes bs s).gridM = s.gridM := rfl
@[simp] theorem emitBytes_nAct (bs : List Byte) (s : State) : (emitBytes bs s).nAct = s.nAct := rfl
@[simp] theorem emitBytes_mAct (bs : List Byte) (s : State) : (emitBytes bs s).mAct = s.mAct := rfl
@[simp] theorem emitBytes_kp (bs : List Byte) (s : State) : (emitBytes bs s).kp = s.kp := rfl
@[simp] theorem emitBytes_smooth (bs : List Byte) (s : State) : (emitBytes bs s).smooth = s.smooth := rfl
@[simp] theorem emitBytes_noise (bs : List Byte) (s : State) : (emitBytes bs s).noise = s.noise := rfl
@[simp] theorem emitBytes_gap (bs : List Byte) (s : State) : (emitBytes bs s).gap = s.gap := rfl
@[simp] theorem emitBytes_cellSel (bs : List Byte) (s : State) : (emitBytes bs s).cellSel = s.cellSel := rfl
@[simp] theorem emitBytes_glut (bs : List Byte) (s : State) : (emitBytes bs s).glut = s.glut := rfl
@[simp] theorem emitBytes_fb (bs : List Byte) (s : State) : (emitBytes bs s).fb = s.fb := rfl
@[simp] theorem emitBytes_tx (bs : List Byte) (s : State) : (emitBytes bs s).tx = s.tx ++ bs := rfl
@[simp] theorem emitBytes_pins (bs : List Byte) (s : State) : (emitBytes bs s).pins = s.pins := rfl
@[simp] theorem emitBytes_pending (bs : List Byte) (s : State) : (emitBytes bs s).pending = s.pending := rfl
@[simp] theorem emitBytes_rdData (bs : List Byte) (s : State) : (emitBytes bs s).rdData = s.rdData := rfl
@[simp] theorem emitBytes_targets (bs : List Byte) (s : State) : (emitBytes bs s).targets = s.targets := rfl
@[simp] theorem emitBytes_encValue (bs : List Byte) (s : State) : (emitBytes bs s).encValue = s.encValue := rfl
@[simp] theorem emitBytes_asked (bs : List Byte) (s : State) : (emitBytes bs s).asked = s.asked := rfl
@[simp] theorem emitBytes_freeCount (bs : List Byte) (s : State) : (emitBytes bs s).freeCount = s.freeCount := rfl
@[simp] theorem emitBytes_fbFill (bs : List Byte) (s : State) : (emitBytes bs s).fbFill = s.fbFill := rfl

/-! ### controlPhase -/

@[simp] theorem controlPhase_params (s : State) (tgt : Nat → Nat → Target) : (controlPhase s tgt).params = s.params := rfl
@[simp] theorem controlPhase_cells (s : State) (tgt : Nat → Nat → Target) : (controlPhase s tgt).cells = s.region.foldl (fun cs rc => ctrlCell s rc.1 rc.2 (tgt rc.1 rc.2) cs) s.cells := rfl
@[simp] theorem controlPhase_st (s : State) (tgt : Nat → Nat → Target) : (controlPhase s tgt).st = s.st := rfl
@[simp] theorem controlPhase_busy (s : State) (tgt : Nat → Nat → Target) : (controlPhase s tgt).busy = s.busy := rfl
@[simp] theorem controlPhase_closeReq (s : State) (tgt : Nat → Nat → Target) : (controlPhase s tgt).closeReq = s.closeReq := rfl
@[simp] theorem controlPhase_srcHeld (s : State) (tgt : Nat → Nat → Target) : (controlPhase s tgt).srcHeld = s.srcHeld := rfl
@[simp] theorem controlPhase_txHeld (s : State) (tgt : Nat → Nat → Target) : (controlPhase s tgt).txHeld = s.txHeld := rfl
@[simp] theorem controlPhase_frameValid (s : State) (tgt : Nat → Nat → Target) : (controlPhase s tgt).frameValid = s.frameValid := rfl
@[simp] theorem controlPhase_err (s : State) (tgt : Nat → Nat → Target) : (controlPhase s tgt).err = s.err := rfl
@[simp] theorem controlPhase_mode (s : State) (tgt : Nat → Nat → Target) : (controlPhase s tgt).mode = s.mode := rfl
@[simp] theorem controlPhase_modeAct (s : State) (tgt : Nat → Nat → Target) : (controlPhase s tgt).modeAct = s.modeAct := rfl
@[simp] theorem controlPhase_gridN (s : State) (tgt : Nat → Nat → Target) : (controlPhase s tgt).gridN = s.gridN := rfl
@[simp] theorem controlPhase_gridM (s : State) (tgt : Nat → Nat → Target) : (controlPhase s tgt).gridM = s.gridM := rfl
@[simp] theorem controlPhase_nAct (s : State) (tgt : Nat → Nat → Target) : (controlPhase s tgt).nAct = s.nAct := rfl
@[simp] theorem controlPhase_mAct (s : State) (tgt : Nat → Nat → Target) : (controlPhase s tgt).mAct = s.mAct := rfl
@[simp] theorem controlPhase_kp (s : State) (tgt : Nat → Nat → Target) : (controlPhase s tgt).kp = s.kp := rfl
@[simp] theorem controlPhase_smooth (s : State) (tgt : Nat → Nat → Target) : (controlPhase s tgt).smooth = s.smooth := rfl
@[simp] theorem controlPhase_noise (s : State) (tgt : Nat → Nat → Target) : (controlPhase s tgt).noise = s.noise := rfl
@[simp] theorem controlPhase_gap (s : State) (tgt : Nat → Nat → Target) : (controlPhase s tgt).gap = s.gap := rfl
@[simp] theorem controlPhase_cellSel (s : State) (tgt : Nat → Nat → Target) : (controlPhase s tgt).cellSel = s.cellSel := rfl
@[simp] theorem controlPhase_glut (s : State) (tgt : Nat → Nat → Target) : (controlPhase s tgt).glut = s.glut := rfl
@[simp] theorem controlPhase_fb (s : State) (tgt : Nat → Nat → Target) : (controlPhase s tgt).fb = s.fb := rfl
@[simp] theorem controlPhase_tx (s : State) (tgt : Nat → Nat → Target) : (controlPhase s tgt).tx = s.tx := rfl
@[simp] theorem controlPhase_pins (s : State) (tgt : Nat → Nat → Target) : (controlPhase s tgt).pins = s.pins := rfl
@[simp] theorem controlPhase_pending (s : State) (tgt : Nat → Nat → Target) : (controlPhase s tgt).pending = s.pending := rfl
@[simp] theorem controlPhase_rdData (s : State) (tgt : Nat → Nat → Target) : (controlPhase s tgt).rdData = s.rdData := rfl
@[simp] theorem controlPhase_targets (s : State) (tgt : Nat → Nat → Target) : (controlPhase s tgt).targets = s.targets := rfl
@[simp] theorem controlPhase_encValue (s : State) (tgt : Nat → Nat → Target) : (controlPhase s tgt).encValue = s.encValue := rfl
@[simp] theorem controlPhase_asked (s : State) (tgt : Nat → Nat → Target) : (controlPhase s tgt).asked = s.asked := rfl
@[simp] theorem controlPhase_freeCount (s : State) (tgt : Nat → Nat → Target) : (controlPhase s tgt).freeCount = s.freeCount := rfl
@[simp] theorem controlPhase_fbFill (s : State) (tgt : Nat → Nat → Target) : (controlPhase s tgt).fbFill = s.fbFill := rfl

/-! ### requestClose -/

@[simp] theorem requestClose_params (s : State) : (requestClose s).params = s.params := rfl
@[simp] theorem requestClose_cells (s : State) : (requestClose s).cells = s.cells := rfl
@[simp] theorem requestClose_st (s : State) : (requestClose s).st = s.st := rfl
@[simp] theorem requestClose_busy (s : State) : (requestClose s).busy = s.busy := rfl
@[simp] theorem requestClose_closeReq (s : State) : (requestClose s).closeReq = true := rfl
@[simp] theorem requestClose_srcHeld (s : State) : (requestClose s).srcHeld = s.srcHeld := rfl
@[simp] theorem requestClose_txHeld (s : State) : (requestClose s).txHeld = s.txHeld := rfl
@[simp] theorem requestClose_frameValid (s : State) : (requestClose s).frameValid = s.frameValid := rfl
@[simp] theorem requestClose_err (s : State) : (requestClose s).err = s.err := rfl
@[simp] theorem requestClose_mode (s : State) : (requestClose s).mode = s.mode := rfl
@[simp] theorem requestClose_modeAct (s : State) : (requestClose s).modeAct = s.modeAct := rfl
@[simp] theorem requestClose_gridN (s : State) : (requestClose s).gridN = s.gridN := rfl
@[simp] theorem requestClose_gridM (s : State) : (requestClose s).gridM = s.gridM := rfl
@[simp] theorem requestClose_nAct (s : State) : (requestClose s).nAct = s.nAct := rfl
@[simp] theorem requestClose_mAct (s : State) : (requestClose s).mAct = s.mAct := rfl
@[simp] theorem requestClose_kp (s : State) : (requestClose s).kp = s.kp := rfl
@[simp] theorem requestClose_smooth (s : State) : (requestClose s).smooth = s.smooth := rfl
@[simp] theorem requestClose_noise (s : State) : (requestClose s).noise = s.noise := rfl
@[simp] theorem requestClose_gap (s : State) : (requestClose s).gap = s.gap := rfl
@[simp] theorem requestClose_cellSel (s : State) : (requestClose s).cellSel = s.cellSel := rfl
@[simp] theorem requestClose_glut (s : State) : (requestClose s).glut = s.glut := rfl
@[simp] theorem requestClose_fb (s : State) : (requestClose s).fb = s.fb := rfl
@[simp] theorem requestClose_tx (s : State) : (requestClose s).tx = s.tx := rfl
@[simp] theorem requestClose_pins (s : State) : (requestClose s).pins = s.pins := rfl
@[simp] theorem requestClose_pending (s : State) : (requestClose s).pending = s.pending := rfl
@[simp] theorem requestClose_rdData (s : State) : (requestClose s).rdData = s.rdData := rfl
@[simp] theorem requestClose_targets (s : State) : (requestClose s).targets = s.targets := rfl
@[simp] theorem requestClose_encValue (s : State) : (requestClose s).encValue = s.encValue := rfl
@[simp] theorem requestClose_asked (s : State) : (requestClose s).asked = s.asked := rfl
@[simp] theorem requestClose_freeCount (s : State) : (requestClose s).freeCount = s.freeCount := rfl
@[simp] theorem requestClose_fbFill (s : State) : (requestClose s).fbFill = s.fbFill := rfl

/-! ### takeRecord -/

@[simp] theorem takeRecord_params (rec : Record) (rest : List Record) (s : State) : (takeRecord rec rest s).params = s.params := rfl
@[simp] theorem takeRecord_cells (rec : Record) (rest : List Record) (s : State) : (takeRecord rec rest s).cells = s.cells := rfl
@[simp] theorem takeRecord_st (rec : Record) (rest : List Record) (s : State) : (takeRecord rec rest s).st = s.st := rfl
@[simp] theorem takeRecord_busy (rec : Record) (rest : List Record) (s : State) : (takeRecord rec rest s).busy = s.busy := rfl
@[simp] theorem takeRecord_closeReq (rec : Record) (rest : List Record) (s : State) : (takeRecord rec rest s).closeReq = s.closeReq := rfl
@[simp] theorem takeRecord_srcHeld (rec : Record) (rest : List Record) (s : State) : (takeRecord rec rest s).srcHeld = s.srcHeld := rfl
@[simp] theorem takeRecord_txHeld (rec : Record) (rest : List Record) (s : State) : (takeRecord rec rest s).txHeld = s.txHeld := rfl
@[simp] theorem takeRecord_frameValid (rec : Record) (rest : List Record) (s : State) : (takeRecord rec rest s).frameValid = s.frameValid := rfl
@[simp] theorem takeRecord_err (rec : Record) (rest : List Record) (s : State) : (takeRecord rec rest s).err = s.err := rfl
@[simp] theorem takeRecord_mode (rec : Record) (rest : List Record) (s : State) : (takeRecord rec rest s).mode = s.mode := rfl
@[simp] theorem takeRecord_modeAct (rec : Record) (rest : List Record) (s : State) : (takeRecord rec rest s).modeAct = s.modeAct := rfl
@[simp] theorem takeRecord_gridN (rec : Record) (rest : List Record) (s : State) : (takeRecord rec rest s).gridN = s.gridN := rfl
@[simp] theorem takeRecord_gridM (rec : Record) (rest : List Record) (s : State) : (takeRecord rec rest s).gridM = s.gridM := rfl
@[simp] theorem takeRecord_nAct (rec : Record) (rest : List Record) (s : State) : (takeRecord rec rest s).nAct = s.nAct := rfl
@[simp] theorem takeRecord_mAct (rec : Record) (rest : List Record) (s : State) : (takeRecord rec rest s).mAct = s.mAct := rfl
@[simp] theorem takeRecord_kp (rec : Record) (rest : List Record) (s : State) : (takeRecord rec rest s).kp = s.kp := rfl
@[simp] theorem takeRecord_smooth (rec : Record) (rest : List Record) (s : State) : (takeRecord rec rest s).smooth = s.smooth := rfl
@[simp] theorem takeRecord_noise (rec : Record) (rest : List Record) (s : State) : (takeRecord rec rest s).noise = s.noise := rfl
@[simp] theorem takeRecord_gap (rec : Record) (rest : List Record) (s : State) : (takeRecord rec rest s).gap = s.gap := rfl
@[simp] theorem takeRecord_cellSel (rec : Record) (rest : List Record) (s : State) : (takeRecord rec rest s).cellSel = s.cellSel := rfl
@[simp] theorem takeRecord_glut (rec : Record) (rest : List Record) (s : State) : (takeRecord rec rest s).glut = s.glut := rfl
@[simp] theorem takeRecord_fb (rec : Record) (rest : List Record) (s : State) : (takeRecord rec rest s).fb = s.fb := rfl
@[simp] theorem takeRecord_tx (rec : Record) (rest : List Record) (s : State) : (takeRecord rec rest s).tx = s.tx := rfl
@[simp] theorem takeRecord_pins (rec : Record) (rest : List Record) (s : State) : (takeRecord rec rest s).pins = rec.pins := rfl
@[simp] theorem takeRecord_pending (rec : Record) (rest : List Record) (s : State) : (takeRecord rec rest s).pending = rest := rfl
@[simp] theorem takeRecord_rdData (rec : Record) (rest : List Record) (s : State) : (takeRecord rec rest s).rdData = s.rdData := rfl
@[simp] theorem takeRecord_targets (rec : Record) (rest : List Record) (s : State) : (takeRecord rec rest s).targets = s.targets := rfl
@[simp] theorem takeRecord_encValue (rec : Record) (rest : List Record) (s : State) : (takeRecord rec rest s).encValue = s.encValue := rfl
@[simp] theorem takeRecord_asked (rec : Record) (rest : List Record) (s : State) : (takeRecord rec rest s).asked = s.asked := rfl
@[simp] theorem takeRecord_freeCount (rec : Record) (rest : List Record) (s : State) : (takeRecord rec rest s).freeCount = s.freeCount := rfl
@[simp] theorem takeRecord_fbFill (rec : Record) (rest : List Record) (s : State) : (takeRecord rec rest s).fbFill = s.fbFill := rfl

/-! ### withFetchWord -/

@[simp] theorem withFetchWord_params (s : State) (n w : Nat) : (s.withFetchWord n w).params = s.params := rfl
@[simp] theorem withFetchWord_cells (s : State) (n w : Nat) : (s.withFetchWord n w).cells = s.cells := rfl
@[simp] theorem withFetchWord_st (s : State) (n w : Nat) : (s.withFetchWord n w).st = s.st := rfl
@[simp] theorem withFetchWord_busy (s : State) (n w : Nat) : (s.withFetchWord n w).busy = s.busy := rfl
@[simp] theorem withFetchWord_closeReq (s : State) (n w : Nat) : (s.withFetchWord n w).closeReq = s.closeReq := rfl
@[simp] theorem withFetchWord_srcHeld (s : State) (n w : Nat) : (s.withFetchWord n w).srcHeld = s.srcHeld := rfl
@[simp] theorem withFetchWord_txHeld (s : State) (n w : Nat) : (s.withFetchWord n w).txHeld = s.txHeld := rfl
@[simp] theorem withFetchWord_frameValid (s : State) (n w : Nat) : (s.withFetchWord n w).frameValid = s.frameValid := rfl
@[simp] theorem withFetchWord_err (s : State) (n w : Nat) : (s.withFetchWord n w).err = s.err := rfl
@[simp] theorem withFetchWord_mode (s : State) (n w : Nat) : (s.withFetchWord n w).mode = s.mode := rfl
@[simp] theorem withFetchWord_modeAct (s : State) (n w : Nat) : (s.withFetchWord n w).modeAct = s.modeAct := rfl
@[simp] theorem withFetchWord_gridN (s : State) (n w : Nat) : (s.withFetchWord n w).gridN = s.gridN := rfl
@[simp] theorem withFetchWord_gridM (s : State) (n w : Nat) : (s.withFetchWord n w).gridM = s.gridM := rfl
@[simp] theorem withFetchWord_nAct (s : State) (n w : Nat) : (s.withFetchWord n w).nAct = s.nAct := rfl
@[simp] theorem withFetchWord_mAct (s : State) (n w : Nat) : (s.withFetchWord n w).mAct = s.mAct := rfl
@[simp] theorem withFetchWord_kp (s : State) (n w : Nat) : (s.withFetchWord n w).kp = s.kp := rfl
@[simp] theorem withFetchWord_smooth (s : State) (n w : Nat) : (s.withFetchWord n w).smooth = s.smooth := rfl
@[simp] theorem withFetchWord_noise (s : State) (n w : Nat) : (s.withFetchWord n w).noise = s.noise := rfl
@[simp] theorem withFetchWord_gap (s : State) (n w : Nat) : (s.withFetchWord n w).gap = s.gap := rfl
@[simp] theorem withFetchWord_cellSel (s : State) (n w : Nat) : (s.withFetchWord n w).cellSel = s.cellSel := rfl
@[simp] theorem withFetchWord_glut (s : State) (n w : Nat) : (s.withFetchWord n w).glut = s.glut := rfl
@[simp] theorem withFetchWord_fb (s : State) (n w : Nat) : (s.withFetchWord n w).fb = s.fb := rfl
@[simp] theorem withFetchWord_tx (s : State) (n w : Nat) : (s.withFetchWord n w).tx = s.tx := rfl
@[simp] theorem withFetchWord_pins (s : State) (n w : Nat) : (s.withFetchWord n w).pins = s.pins := rfl
@[simp] theorem withFetchWord_pending (s : State) (n w : Nat) : (s.withFetchWord n w).pending = ({ pins := s.pins, bytes := layoutWord n w } : Record) :: s.pending := rfl
@[simp] theorem withFetchWord_rdData (s : State) (n w : Nat) : (s.withFetchWord n w).rdData = s.rdData := rfl
@[simp] theorem withFetchWord_targets (s : State) (n w : Nat) : (s.withFetchWord n w).targets = s.targets := rfl
@[simp] theorem withFetchWord_encValue (s : State) (n w : Nat) : (s.withFetchWord n w).encValue = s.encValue := rfl
@[simp] theorem withFetchWord_asked (s : State) (n w : Nat) : (s.withFetchWord n w).asked = s.asked := rfl
@[simp] theorem withFetchWord_freeCount (s : State) (n w : Nat) : (s.withFetchWord n w).freeCount = s.freeCount := rfl
@[simp] theorem withFetchWord_fbFill (s : State) (n w : Nat) : (s.withFetchWord n w).fbFill = s.fbFill := rfl

/-! ### resetBlock -/

@[simp] theorem resetBlock_params (s : State) : (resetBlock s).params = s.params := rfl
@[simp] theorem resetBlock_cells (s : State) : (resetBlock s).cells = (State.resetOf s.params).cells := rfl
@[simp] theorem resetBlock_st (s : State) : (resetBlock s).st = (State.resetOf s.params).st := rfl
@[simp] theorem resetBlock_busy (s : State) : (resetBlock s).busy = (State.resetOf s.params).busy := rfl
@[simp] theorem resetBlock_closeReq (s : State) : (resetBlock s).closeReq = (State.resetOf s.params).closeReq := rfl
@[simp] theorem resetBlock_srcHeld (s : State) : (resetBlock s).srcHeld = (State.resetOf s.params).srcHeld := rfl
@[simp] theorem resetBlock_txHeld (s : State) : (resetBlock s).txHeld = (State.resetOf s.params).txHeld := rfl
@[simp] theorem resetBlock_frameValid (s : State) : (resetBlock s).frameValid = (State.resetOf s.params).frameValid := rfl
@[simp] theorem resetBlock_err (s : State) : (resetBlock s).err = (State.resetOf s.params).err := rfl
@[simp] theorem resetBlock_mode (s : State) : (resetBlock s).mode = (State.resetOf s.params).mode := rfl
@[simp] theorem resetBlock_modeAct (s : State) : (resetBlock s).modeAct = (State.resetOf s.params).modeAct := rfl
@[simp] theorem resetBlock_gridN (s : State) : (resetBlock s).gridN = (State.resetOf s.params).gridN := rfl
@[simp] theorem resetBlock_gridM (s : State) : (resetBlock s).gridM = (State.resetOf s.params).gridM := rfl
@[simp] theorem resetBlock_nAct (s : State) : (resetBlock s).nAct = (State.resetOf s.params).nAct := rfl
@[simp] theorem resetBlock_mAct (s : State) : (resetBlock s).mAct = (State.resetOf s.params).mAct := rfl
@[simp] theorem resetBlock_kp (s : State) : (resetBlock s).kp = (State.resetOf s.params).kp := rfl
@[simp] theorem resetBlock_smooth (s : State) : (resetBlock s).smooth = (State.resetOf s.params).smooth := rfl
@[simp] theorem resetBlock_noise (s : State) : (resetBlock s).noise = (State.resetOf s.params).noise := rfl
@[simp] theorem resetBlock_gap (s : State) : (resetBlock s).gap = (State.resetOf s.params).gap := rfl
@[simp] theorem resetBlock_cellSel (s : State) : (resetBlock s).cellSel = (State.resetOf s.params).cellSel := rfl
@[simp] theorem resetBlock_glut (s : State) : (resetBlock s).glut = (State.resetOf s.params).glut := rfl
@[simp] theorem resetBlock_fb (s : State) : (resetBlock s).fb = (State.resetOf s.params).fb := rfl
@[simp] theorem resetBlock_tx (s : State) : (resetBlock s).tx = s.tx := rfl
@[simp] theorem resetBlock_pins (s : State) : (resetBlock s).pins = s.pins := rfl
@[simp] theorem resetBlock_pending (s : State) : (resetBlock s).pending = s.pending := rfl
@[simp] theorem resetBlock_rdData (s : State) : (resetBlock s).rdData = s.rdData := rfl
@[simp] theorem resetBlock_targets (s : State) : (resetBlock s).targets = s.targets := rfl
@[simp] theorem resetBlock_encValue (s : State) : (resetBlock s).encValue = s.encValue := rfl
@[simp] theorem resetBlock_asked (s : State) : (resetBlock s).asked = s.asked := rfl
@[simp] theorem resetBlock_freeCount (s : State) : (resetBlock s).freeCount = s.freeCount + 1 := rfl
@[simp] theorem resetBlock_fbFill (s : State) : (resetBlock s).fbFill = s.freeCount := rfl

/-! ### raiseDegen -/

@[simp] theorem raiseDegen_params (m : Mode) (s : State) : (raiseDegen m s).params = s.params := by
  unfold raiseDegen; split <;> rfl
@[simp] theorem raiseDegen_cells (m : Mode) (s : State) : (raiseDegen m s).cells = s.cells := by
  unfold raiseDegen; split <;> rfl
@[simp] theorem raiseDegen_st (m : Mode) (s : State) : (raiseDegen m s).st = s.st := by
  unfold raiseDegen; split <;> rfl
@[simp] theorem raiseDegen_busy (m : Mode) (s : State) : (raiseDegen m s).busy = s.busy := by
  unfold raiseDegen; split <;> rfl
@[simp] theorem raiseDegen_closeReq (m : Mode) (s : State) : (raiseDegen m s).closeReq = s.closeReq := by
  unfold raiseDegen; split <;> rfl
@[simp] theorem raiseDegen_srcHeld (m : Mode) (s : State) : (raiseDegen m s).srcHeld = s.srcHeld := by
  unfold raiseDegen; split <;> rfl
@[simp] theorem raiseDegen_txHeld (m : Mode) (s : State) : (raiseDegen m s).txHeld = s.txHeld := by
  unfold raiseDegen; split <;> rfl
@[simp] theorem raiseDegen_frameValid (m : Mode) (s : State) : (raiseDegen m s).frameValid = s.frameValid := by
  unfold raiseDegen; split <;> rfl
@[simp] theorem raiseDegen_mode (m : Mode) (s : State) : (raiseDegen m s).mode = s.mode := by
  unfold raiseDegen; split <;> rfl
@[simp] theorem raiseDegen_modeAct (m : Mode) (s : State) : (raiseDegen m s).modeAct = s.modeAct := by
  unfold raiseDegen; split <;> rfl
@[simp] theorem raiseDegen_gridN (m : Mode) (s : State) : (raiseDegen m s).gridN = s.gridN := by
  unfold raiseDegen; split <;> rfl
@[simp] theorem raiseDegen_gridM (m : Mode) (s : State) : (raiseDegen m s).gridM = s.gridM := by
  unfold raiseDegen; split <;> rfl
@[simp] theorem raiseDegen_nAct (m : Mode) (s : State) : (raiseDegen m s).nAct = s.nAct := by
  unfold raiseDegen; split <;> rfl
@[simp] theorem raiseDegen_mAct (m : Mode) (s : State) : (raiseDegen m s).mAct = s.mAct := by
  unfold raiseDegen; split <;> rfl
@[simp] theorem raiseDegen_kp (m : Mode) (s : State) : (raiseDegen m s).kp = s.kp := by
  unfold raiseDegen; split <;> rfl
@[simp] theorem raiseDegen_smooth (m : Mode) (s : State) : (raiseDegen m s).smooth = s.smooth := by
  unfold raiseDegen; split <;> rfl
@[simp] theorem raiseDegen_noise (m : Mode) (s : State) : (raiseDegen m s).noise = s.noise := by
  unfold raiseDegen; split <;> rfl
@[simp] theorem raiseDegen_gap (m : Mode) (s : State) : (raiseDegen m s).gap = s.gap := by
  unfold raiseDegen; split <;> rfl
@[simp] theorem raiseDegen_cellSel (m : Mode) (s : State) : (raiseDegen m s).cellSel = s.cellSel := by
  unfold raiseDegen; split <;> rfl
@[simp] theorem raiseDegen_glut (m : Mode) (s : State) : (raiseDegen m s).glut = s.glut := by
  unfold raiseDegen; split <;> rfl
@[simp] theorem raiseDegen_fb (m : Mode) (s : State) : (raiseDegen m s).fb = s.fb := by
  unfold raiseDegen; split <;> rfl
@[simp] theorem raiseDegen_tx (m : Mode) (s : State) : (raiseDegen m s).tx = s.tx := by
  unfold raiseDegen; split <;> rfl
@[simp] theorem raiseDegen_pins (m : Mode) (s : State) : (raiseDegen m s).pins = s.pins := by
  unfold raiseDegen; split <;> rfl
@[simp] theorem raiseDegen_pending (m : Mode) (s : State) : (raiseDegen m s).pending = s.pending := by
  unfold raiseDegen; split <;> rfl
@[simp] theorem raiseDegen_rdData (m : Mode) (s : State) : (raiseDegen m s).rdData = s.rdData := by
  unfold raiseDegen; split <;> rfl
@[simp] theorem raiseDegen_targets (m : Mode) (s : State) : (raiseDegen m s).targets = s.targets := by
  unfold raiseDegen; split <;> rfl
@[simp] theorem raiseDegen_encValue (m : Mode) (s : State) : (raiseDegen m s).encValue = s.encValue := by
  unfold raiseDegen; split <;> rfl
@[simp] theorem raiseDegen_asked (m : Mode) (s : State) : (raiseDegen m s).asked = s.asked := by
  unfold raiseDegen; split <;> rfl
@[simp] theorem raiseDegen_freeCount (m : Mode) (s : State) : (raiseDegen m s).freeCount = s.freeCount := by
  unfold raiseDegen; split <;> rfl
@[simp] theorem raiseDegen_fbFill (m : Mode) (s : State) : (raiseDegen m s).fbFill = s.fbFill := by
  unfold raiseDegen; split <;> rfl

/-! ### latchConfig -/

@[simp] theorem latchConfig_params (s : State) : (latchConfig s).params = s.params := by
  unfold latchConfig; split; split; all_goals rfl
@[simp] theorem latchConfig_st (s : State) : (latchConfig s).st = s.st := by
  unfold latchConfig; split; split; all_goals rfl
@[simp] theorem latchConfig_busy (s : State) : (latchConfig s).busy = s.busy := by
  unfold latchConfig; split; split; all_goals rfl
@[simp] theorem latchConfig_closeReq (s : State) : (latchConfig s).closeReq = s.closeReq := by
  unfold latchConfig; split; split; all_goals rfl
@[simp] theorem latchConfig_srcHeld (s : State) : (latchConfig s).srcHeld = s.srcHeld := by
  unfold latchConfig; split; split; all_goals rfl
@[simp] theorem latchConfig_txHeld (s : State) : (latchConfig s).txHeld = s.txHeld := by
  unfold latchConfig; split; split; all_goals rfl
@[simp] theorem latchConfig_frameValid (s : State) : (latchConfig s).frameValid = s.frameValid := by
  unfold latchConfig; split; split; all_goals rfl
@[simp] theorem latchConfig_mode (s : State) : (latchConfig s).mode = s.mode := by
  unfold latchConfig; split; split; all_goals rfl
@[simp] theorem latchConfig_modeAct (s : State) : (latchConfig s).modeAct = s.modeAct := by
  unfold latchConfig; split; split; all_goals rfl
@[simp] theorem latchConfig_gridN (s : State) : (latchConfig s).gridN = s.gridN := by
  unfold latchConfig; split; split; all_goals rfl
@[simp] theorem latchConfig_gridM (s : State) : (latchConfig s).gridM = s.gridM := by
  unfold latchConfig; split; split; all_goals rfl
@[simp] theorem latchConfig_kp (s : State) : (latchConfig s).kp = s.kp := by
  unfold latchConfig; split; split; all_goals rfl
@[simp] theorem latchConfig_smooth (s : State) : (latchConfig s).smooth = s.smooth := by
  unfold latchConfig; split; split; all_goals rfl
@[simp] theorem latchConfig_noise (s : State) : (latchConfig s).noise = s.noise := by
  unfold latchConfig; split; split; all_goals rfl
@[simp] theorem latchConfig_gap (s : State) : (latchConfig s).gap = s.gap := by
  unfold latchConfig; split; split; all_goals rfl
@[simp] theorem latchConfig_cellSel (s : State) : (latchConfig s).cellSel = s.cellSel := by
  unfold latchConfig; split; split; all_goals rfl
@[simp] theorem latchConfig_glut (s : State) : (latchConfig s).glut = s.glut := by
  unfold latchConfig; split; split; all_goals rfl
@[simp] theorem latchConfig_fb (s : State) : (latchConfig s).fb = s.fb := by
  unfold latchConfig; split; split; all_goals rfl
@[simp] theorem latchConfig_tx (s : State) : (latchConfig s).tx = s.tx := by
  unfold latchConfig; split; split; all_goals rfl
@[simp] theorem latchConfig_pins (s : State) : (latchConfig s).pins = s.pins := by
  unfold latchConfig; split; split; all_goals rfl
@[simp] theorem latchConfig_pending (s : State) : (latchConfig s).pending = s.pending := by
  unfold latchConfig; split; split; all_goals rfl
@[simp] theorem latchConfig_rdData (s : State) : (latchConfig s).rdData = s.rdData := by
  unfold latchConfig; split; split; all_goals rfl
@[simp] theorem latchConfig_targets (s : State) : (latchConfig s).targets = s.targets := by
  unfold latchConfig; split; split; all_goals rfl
@[simp] theorem latchConfig_encValue (s : State) : (latchConfig s).encValue = s.encValue := by
  unfold latchConfig; split; split; all_goals rfl
@[simp] theorem latchConfig_asked (s : State) : (latchConfig s).asked = s.asked := by
  unfold latchConfig; split; split; all_goals rfl
@[simp] theorem latchConfig_freeCount (s : State) : (latchConfig s).freeCount = s.freeCount := by
  unfold latchConfig; split; split; all_goals rfl
@[simp] theorem latchConfig_fbFill (s : State) : (latchConfig s).fbFill = s.fbFill := by
  unfold latchConfig; split; split; all_goals rfl

/-! ### fireClose -/

@[simp] theorem fireClose_params (s : State) : (fireClose s).params = s.params := by
  unfold fireClose; split <;> rfl
@[simp] theorem fireClose_cells (s : State) : (fireClose s).cells = s.cells := by
  unfold fireClose; split <;> rfl
@[simp] theorem fireClose_busy (s : State) : (fireClose s).busy = s.busy := by
  unfold fireClose; split <;> rfl
@[simp] theorem fireClose_closeReq (s : State) : (fireClose s).closeReq = s.closeReq := by
  unfold fireClose; split <;> rfl
@[simp] theorem fireClose_srcHeld (s : State) : (fireClose s).srcHeld = s.srcHeld := by
  unfold fireClose; split <;> rfl
@[simp] theorem fireClose_txHeld (s : State) : (fireClose s).txHeld = s.txHeld := by
  unfold fireClose; split <;> rfl
@[simp] theorem fireClose_frameValid (s : State) : (fireClose s).frameValid = s.frameValid := by
  unfold fireClose; split <;> rfl
@[simp] theorem fireClose_err (s : State) : (fireClose s).err = s.err := by
  unfold fireClose; split <;> rfl
@[simp] theorem fireClose_mode (s : State) : (fireClose s).mode = s.mode := by
  unfold fireClose; split <;> rfl
@[simp] theorem fireClose_modeAct (s : State) : (fireClose s).modeAct = s.modeAct := by
  unfold fireClose; split <;> rfl
@[simp] theorem fireClose_gridN (s : State) : (fireClose s).gridN = s.gridN := by
  unfold fireClose; split <;> rfl
@[simp] theorem fireClose_gridM (s : State) : (fireClose s).gridM = s.gridM := by
  unfold fireClose; split <;> rfl
@[simp] theorem fireClose_nAct (s : State) : (fireClose s).nAct = s.nAct := by
  unfold fireClose; split <;> rfl
@[simp] theorem fireClose_mAct (s : State) : (fireClose s).mAct = s.mAct := by
  unfold fireClose; split <;> rfl
@[simp] theorem fireClose_kp (s : State) : (fireClose s).kp = s.kp := by
  unfold fireClose; split <;> rfl
@[simp] theorem fireClose_smooth (s : State) : (fireClose s).smooth = s.smooth := by
  unfold fireClose; split <;> rfl
@[simp] theorem fireClose_noise (s : State) : (fireClose s).noise = s.noise := by
  unfold fireClose; split <;> rfl
@[simp] theorem fireClose_gap (s : State) : (fireClose s).gap = s.gap := by
  unfold fireClose; split <;> rfl
@[simp] theorem fireClose_cellSel (s : State) : (fireClose s).cellSel = s.cellSel := by
  unfold fireClose; split <;> rfl
@[simp] theorem fireClose_glut (s : State) : (fireClose s).glut = s.glut := by
  unfold fireClose; split <;> rfl
@[simp] theorem fireClose_fb (s : State) : (fireClose s).fb = s.fb := by
  unfold fireClose; split <;> rfl
@[simp] theorem fireClose_tx (s : State) : (fireClose s).tx = s.tx := by
  unfold fireClose; split <;> rfl
@[simp] theorem fireClose_pins (s : State) : (fireClose s).pins = s.pins := by
  unfold fireClose; split <;> rfl
@[simp] theorem fireClose_pending (s : State) : (fireClose s).pending = s.pending := by
  unfold fireClose; split <;> rfl
@[simp] theorem fireClose_rdData (s : State) : (fireClose s).rdData = s.rdData := by
  unfold fireClose; split <;> rfl
@[simp] theorem fireClose_targets (s : State) : (fireClose s).targets = s.targets := by
  unfold fireClose; split <;> rfl
@[simp] theorem fireClose_encValue (s : State) : (fireClose s).encValue = s.encValue := by
  unfold fireClose; split <;> rfl
@[simp] theorem fireClose_asked (s : State) : (fireClose s).asked = s.asked := by
  unfold fireClose; split <;> rfl
@[simp] theorem fireClose_freeCount (s : State) : (fireClose s).freeCount = s.freeCount := by
  unfold fireClose; split <;> rfl
@[simp] theorem fireClose_fbFill (s : State) : (fireClose s).fbFill = s.fbFill := by
  unfold fireClose; split <;> rfl

/-! ### fireStop -/

@[simp] theorem fireStop_params (s : State) : (fireStop s).params = s.params := by
  unfold fireStop; split <;> rfl
@[simp] theorem fireStop_busy (s : State) : (fireStop s).busy = s.busy := by
  unfold fireStop; split <;> rfl
@[simp] theorem fireStop_closeReq (s : State) : (fireStop s).closeReq = s.closeReq := by
  unfold fireStop; split <;> rfl
@[simp] theorem fireStop_frameValid (s : State) : (fireStop s).frameValid = s.frameValid := by
  unfold fireStop; split <;> rfl
@[simp] theorem fireStop_err (s : State) : (fireStop s).err = s.err := by
  unfold fireStop; split <;> rfl
@[simp] theorem fireStop_mode (s : State) : (fireStop s).mode = s.mode := by
  unfold fireStop; split <;> rfl
@[simp] theorem fireStop_modeAct (s : State) : (fireStop s).modeAct = s.modeAct := by
  unfold fireStop; split <;> rfl
@[simp] theorem fireStop_gridN (s : State) : (fireStop s).gridN = s.gridN := by
  unfold fireStop; split <;> rfl
@[simp] theorem fireStop_gridM (s : State) : (fireStop s).gridM = s.gridM := by
  unfold fireStop; split <;> rfl
@[simp] theorem fireStop_nAct (s : State) : (fireStop s).nAct = s.nAct := by
  unfold fireStop; split <;> rfl
@[simp] theorem fireStop_mAct (s : State) : (fireStop s).mAct = s.mAct := by
  unfold fireStop; split <;> rfl
@[simp] theorem fireStop_kp (s : State) : (fireStop s).kp = s.kp := by
  unfold fireStop; split <;> rfl
@[simp] theorem fireStop_smooth (s : State) : (fireStop s).smooth = s.smooth := by
  unfold fireStop; split <;> rfl
@[simp] theorem fireStop_noise (s : State) : (fireStop s).noise = s.noise := by
  unfold fireStop; split <;> rfl
@[simp] theorem fireStop_gap (s : State) : (fireStop s).gap = s.gap := by
  unfold fireStop; split <;> rfl
@[simp] theorem fireStop_cellSel (s : State) : (fireStop s).cellSel = s.cellSel := by
  unfold fireStop; split <;> rfl
@[simp] theorem fireStop_glut (s : State) : (fireStop s).glut = s.glut := by
  unfold fireStop; split <;> rfl
@[simp] theorem fireStop_fb (s : State) : (fireStop s).fb = s.fb := by
  unfold fireStop; split <;> rfl
@[simp] theorem fireStop_tx (s : State) : (fireStop s).tx = s.tx := by
  unfold fireStop; split <;> rfl
@[simp] theorem fireStop_pins (s : State) : (fireStop s).pins = s.pins := by
  unfold fireStop; split <;> rfl
@[simp] theorem fireStop_pending (s : State) : (fireStop s).pending = s.pending := by
  unfold fireStop; split <;> rfl
@[simp] theorem fireStop_rdData (s : State) : (fireStop s).rdData = s.rdData := by
  unfold fireStop; split <;> rfl
@[simp] theorem fireStop_targets (s : State) : (fireStop s).targets = s.targets := by
  unfold fireStop; split <;> rfl
@[simp] theorem fireStop_encValue (s : State) : (fireStop s).encValue = s.encValue := by
  unfold fireStop; split <;> rfl
@[simp] theorem fireStop_asked (s : State) : (fireStop s).asked = s.asked := by
  unfold fireStop; split <;> rfl
@[simp] theorem fireStop_fbFill (s : State) : (fireStop s).fbFill = s.fbFill := by
  unfold fireStop; split <;> rfl

/-! ### The register port's own fields -/

/-- `setErr` sets its bit and keeps the others (R30, R190). -/
theorem getLsbD_setErr (e : Byte) (f : ErrFlag) (i : Nat) :
    (setErr e f).getLsbD i = (e.getLsbD i || decide (i = errBit f)) := by
  have h : errBit f < 8 := by cases f <;> decide
  rw [setErr, BitVec.getLsbD_or, BitVec.getLsbD_twoPow]
  by_cases hi : i = errBit f
  · subst hi; simp [h]
  · simp [hi, Ne.symm hi]

theorem errBit_injective {f g : ErrFlag} (h : errBit f = errBit g) : f = g := by
  cases f <;> cases g <;> simp [errBit] at h ⊢

/-- `raise X` sets ERR.X and leaves the other flags (R190). -/
theorem hasErr_raise (f g : ErrFlag) (s : State) : (raise f s).hasErr g = (s.hasErr g || decide (g = f)) := by
  simp only [State.hasErr, raise_err, getLsbD_setErr]
  congr 1
  exact decide_eq_decide.2 ⟨errBit_injective, fun h => h ▸ rfl⟩

end Sys2Proof.Machine
end

