-- ==== Sys2Proof/Laws/Encoder.lean ====
section
/-! SUPPORT. What the encoder sends (R141 to R147). -/

namespace Sys2Proof.Machine

theorem encAbsOf_mem (q : Int) : 0 ≤ encAbsOf q ∧ encAbsOf q ≤ 255 := clamp_mem _ (by norm_num)

theorem encDeltaOf_mem (q : Int) : 0 ≤ encDeltaOf q ∧ encDeltaOf q ≤ 255 := clamp_mem _ (by norm_num)

/-- Every emitted value is in 0..255 (R147). -/
theorem encOf_mem (m : Mode) (q : Int) : 0 ≤ encOf m q ∧ encOf m q ≤ 255 := by
  cases m
  · exact encAbsOf_mem q
  · exact encDeltaOf_mem q
  · exact encAbsOf_mem q

/-- On its operand range the clamp of ENC.ABS never acts (R141). -/
theorem encAbsOf_eq {q : Int} (h₀ : 0 ≤ q) (h₁ : q ≤ 65280) : encAbsOf q = (q + 128) / 256 := by
  rw [encAbsOf, rshr_eight, clamp_of_mem (by omega) (by omega)]

/-- On its operand range the clamp of ENC.DELTA never acts (R142). -/
theorem encDeltaOf_eq {q : Int} (h₀ : -65280 ≤ q) (h₁ : q ≤ 65280) :
    encDeltaOf q = (q + 65280 + 256) / 512 := by
  rw [encDeltaOf, rshr_nine, clamp_of_mem (by omega) (by omega)]

end Sys2Proof.Machine
end

