-- ==== Sys2Proof/Laws/Sampler.lean ====
section
/-! SUPPORT. The laws of the sampler: block sums, block means, targets (R104, R108, R109). -/

namespace Sys2Proof.Machine

theorem sum_map_le {α : Type} (l : List α) (f : α → Nat) (b : Nat) (h : ∀ x ∈ l, f x ≤ b) :
    (l.map f).sum ≤ b * l.length := by
  induction l with
  | nil => simp
  | cons x t ih =>
    have h₁ := h x (by simp)
    have h₂ := ih fun y hy => h y (List.mem_cons_of_mem _ hy)
    rw [List.map_cons, List.sum_cons, List.length_cons, Nat.mul_add, Nat.mul_one]
    omega

/-- BLOCKSUM ≤ 255·bh·bw (R104). -/
theorem State.blockSum_le (s : State) (y0 x0 bh bw : Nat) : s.blockSum y0 x0 bh bw ≤ 255 * (bh * bw) := by
  have h : ∀ j ∈ List.range bh,
      ((List.range bw).map fun i => (s.pixel ((y0 + j) * s.params.width + (x0 + i))).toNat).sum ≤ 255 * bw := by
    intro j _
    refine (sum_map_le _ _ 255 fun i _ => ?_).trans (by simp)
    have := (s.pixel ((y0 + j) * s.params.width + (x0 + i))).isLt
    omega
  refine (sum_map_le _ _ (255 * bw) h).trans ?_
  rw [List.length_range]
  exact le_of_eq (by ring)

/-- MEANQ ≤ 65280 (R104). -/
theorem State.meanQ_le (s : State) (y0 x0 : Nat) {bh bw : Nat} (hh : 1 ≤ bh) (hw : 1 ≤ bw) :
    s.meanQ y0 x0 bh bw ≤ 65280 := by
  have hpos : 0 < bh * bw := Nat.mul_pos hh hw
  have hs := s.blockSum_le y0 x0 bh bw
  obtain ⟨h₁, -⟩ := divr_nearest (256 * s.blockSum y0 x0 bh bw) hpos
  by_contra hc
  have h₂ : bh * bw * 65281 ≤ bh * bw * s.meanQ y0 x0 bh bw := Nat.mul_le_mul_left _ (by omega)
  change bh * bw * 65281 ≤ bh * bw * divr _ _ at h₂
  omega

/-- A block sum depends only on the pixels of its rectangle. -/
theorem State.blockSum_congr {s s' : State} (hw : s.params.width = s'.params.width) (y0 x0 bh bw : Nat)
    (h : ∀ j < bh, ∀ i < bw, s.pixel ((y0 + j) * s.params.width + (x0 + i))
      = s'.pixel ((y0 + j) * s.params.width + (x0 + i))) :
    s.blockSum y0 x0 bh bw = s'.blockSum y0 x0 bh bw := by
  unfold State.blockSum
  congr 1
  refine List.map_congr_left fun j hj => ?_
  congr 1
  refine List.map_congr_left fun i hi => ?_
  rw [← hw, h j (List.mem_range.1 hj) i (List.mem_range.1 hi)]

/-- A target of ABS or SINGLE lies in 0..65280, a target of DELTA in −65280..65280 (R108). -/
theorem targetOf_mem (m : Mode) (s : State) (r c : Nat) {q : Int} (h : targetOf m s r c = .value q) :
    rangeLo m ≤ q ∧ q ≤ qOne := by
  cases m
  · simp only [targetOf, targetAbs] at h
    split at h
    · cases h
    · cases h
      have := s.meanQ_le (r * s.blockH) (c * s.blockW) (bh := s.blockH) (bw := s.blockW) (by omega) (by omega)
      simp only [rangeLo, qOne]
      omega
  · simp only [targetOf, targetDelta] at h
    split at h
    · cases h
    · cases h
      have h₁ := s.meanQ_le (r * s.blockH) (s.rightX + c * s.blockWDelta) (bh := s.blockH) (bw := s.blockWDelta)
        (by omega) (by omega)
      have h₂ := s.meanQ_le (r * s.blockH) (c * s.blockWDelta) (bh := s.blockH) (bw := s.blockWDelta)
        (by omega) (by omega)
      simp only [rangeLo, qOne]
      omega
  · simp only [targetOf, targetSingle] at h
    split at h
    · cases h
    · cases h
      have := s.meanQ_le 0 0 (bh := s.blockH) (bw := s.blockW) (by omega) (by omega)
      simp only [rangeLo, qOne]
      omega

theorem raiseDegen_of_degenerate {m : Mode} {s : State} (h : degenerate m s = true) :
    raiseDegen m s = raise .degen s := if_pos h

theorem raiseDegen_of_not {m : Mode} {s : State} (h : degenerate m s = false) : raiseDegen m s = s :=
  if_neg (by simp [h])

end Sys2Proof.Machine
end

