-- ==== Sys2Proof/Laws/Scheduler.lean ====
section
/-! SUPPORT. What each scheduler operation can do, said once (R161 to R168). -/

namespace Sys2Proof.Machine

/-- Everything LATCHCFG can do (R165). -/
theorem latchConfig_cases (s : State) :
    (s.gridValid = false ∧ latchConfig s = raise .badGrid s) ∨
    (s.gridValid = true ∧ s.gridN.toNat = s.nAct.toNat ∧ s.gridM.toNat = s.mAct.toNat ∧ latchConfig s = s) ∨
    (s.gridValid = true ∧ ¬(s.gridN.toNat = s.nAct.toNat ∧ s.gridM.toNat = s.mAct.toNat) ∧
      latchConfig s = { s with
        cells :=
          if s.modeAct = .single then s.cells
          else zeroCells s.params.nmax s.params.mmax s.outsideOverlap s.cells
        nAct := s.gridN.setWidth 8
        mAct := s.gridM.setWidth 8 }) := by
  unfold latchConfig
  by_cases hv : s.gridValid = true
  · by_cases he : s.gridN.toNat = s.nAct.toNat ∧ s.gridM.toNat = s.mAct.toNat
    · exact .inr (.inl ⟨hv, he.1, he.2, by rw [if_pos hv, if_pos he]⟩)
    · exact .inr (.inr ⟨hv, he, by rw [if_pos hv, if_neg he]⟩)
  · exact .inl ⟨by simpa using hv, by rw [if_neg hv]⟩

/-- Everything START can do (R161, R201). -/
theorem startBlock_cases (s : State) :
    (s.st ≠ .idle ∧ startBlock s = raise .badCmd s) ∨
    (s.st = .idle ∧ s.pins.transportReady = false ∧
      startBlock s = { raise .noTransport s with st := .stopped }) ∨
    (s.st = .idle ∧ s.pins.transportReady = true ∧ s.pins.sourceReady = false ∧ startBlock s = s) ∨
    (s.st = .idle ∧ s.pins.transportReady = true ∧ s.pins.sourceReady = true ∧
      startBlock s =
        { latchConfig { s with modeAct := s.mode, srcHeld := true, txHeld := true } with st := .running }) := by
  unfold startBlock
  by_cases h₁ : s.st = .idle
  · by_cases h₂ : s.pins.transportReady = false
    · exact .inr (.inl ⟨h₁, h₂, by simp [h₁, h₂]⟩)
    · by_cases h₃ : s.pins.sourceReady = false
      · exact .inr (.inr (.inl ⟨h₁, by simpa using h₂, h₃, by simp [h₁, h₂, h₃]⟩))
      · exact .inr (.inr (.inr ⟨h₁, by simpa using h₂, by simpa using h₃, by simp [h₁, h₂, h₃]⟩))
  · exact .inl ⟨h₁, by simp [h₁]⟩

/-- Everything TICK can do (R163, R164, R166, R199). -/
theorem tickBlock_cases (s : State) :
    ((s.st ≠ .running ∨ s.closeReq = true) ∧ tickBlock s = s) ∨
    (s.st = .running ∧ s.closeReq = false ∧ s.busy = true ∧ tickBlock s = raise .overrun s) ∨
    (s.st = .running ∧ s.closeReq = false ∧ s.busy = false ∧ s.frameValid = false ∧
      tickBlock s = raise .noFrame s) ∨
    (s.st = .running ∧ s.closeReq = false ∧ s.busy = false ∧ s.frameValid = true ∧
      tickBlock s = fullTick s) := by
  unfold tickBlock
  by_cases h₁ : s.st = .running
  · cases h₂ : s.closeReq
    · cases h₃ : s.busy
      · cases h₄ : s.frameValid
        · exact .inr (.inr (.inl ⟨h₁, rfl, rfl, rfl, by simp [h₁]⟩))
        · exact .inr (.inr (.inr ⟨h₁, rfl, rfl, rfl, by simp [h₁]⟩))
      · exact .inr (.inl ⟨h₁, rfl, rfl, by simp [h₁]⟩)
    · exact .inl ⟨.inr rfl, by simp [h₁]⟩
  · exact .inl ⟨.inl h₁, by simp [h₁]⟩

/-- What LATCHCFG does to a cell (R165): kept in the overlap, in SINGLE mode, under an invalid or an unchanged request,
and outside the arrays; 0 otherwise. -/
theorem latchConfig_cell (s : State) (r c : Nat) :
    (latchConfig s).cells.curAt r c =
      (if s.gridValid = true ∧ ¬(s.gridN.toNat = s.nAct.toNat ∧ s.gridM.toNat = s.mAct.toNat) ∧
          s.modeAct ≠ .single ∧ (r < s.params.nmax ∧ c < s.params.mmax) ∧ s.outsideOverlap r c = true
        then 0 else s.cells.curAt r c) ∧
    (latchConfig s).cells.smAt r c =
      (if s.gridValid = true ∧ ¬(s.gridN.toNat = s.nAct.toNat ∧ s.gridM.toNat = s.mAct.toNat) ∧
          s.modeAct ≠ .single ∧ (r < s.params.nmax ∧ c < s.params.mmax) ∧ s.outsideOverlap r c = true
        then 0 else s.cells.smAt r c) := by
  obtain ⟨hv, h⟩ | ⟨hv, hn, hm, h⟩ | ⟨hv, hne, h⟩ := latchConfig_cases s
  · simp [h, hv]
  · simp [h, hn, hm]
  · by_cases hs : s.modeAct = .single
    · simp [h, hs]
    · obtain ⟨h₁, h₂⟩ := zeroCells_spec s.params.nmax s.params.mmax s.outsideOverlap s.cells r c
      simp only [h, hs, if_false, h₁, h₂, hv, hne, not_false_eq_true, ne_eq, true_and, and_self]

@[simp] theorem fill_latchConfig (s : State) : (latchConfig s).cells.fill = s.cells.fill := by
  obtain ⟨-, h⟩ | ⟨-, -, -, h⟩ | ⟨-, -, h⟩ := latchConfig_cases s
  · simp [h]
  · simp [h]
  · rw [h]
    dsimp only
    split <;> simp

theorem wf_latchConfig (s : State) (hw : s.cells.wf = true) : (latchConfig s).cells.wf = true := by
  obtain ⟨-, h⟩ | ⟨-, -, -, h⟩ | ⟨-, -, h⟩ := latchConfig_cases s
  · simpa [h] using hw
  · simpa [h] using hw
  · rw [h]
    dsimp only
    split
    · exact hw
    · exact wf_zeroCells _ _ _ hw

/-! ### The full tick, field by field (R166) -/

theorem sampled_cells (s : State) : (sampled s).cells = (latchConfig { s with busy := true }).cells := by
  simp [sampled]

theorem fullTick_eq (s : State) :
    fullTick s = { emitPhase (controlPhase (sampled s) (targetOf s.modeAct (sampled s))) with
      frameValid := false, busy := false } := rfl

theorem emitPhase_eq (s : State) : emitPhase s = emitBytes (tickLines s) s := rfl

/-- What a full tick appends to TX (R143, R145). -/
theorem fullTick_tx (s : State) :
    (fullTick s).tx = s.tx ++ tickLines (controlPhase (sampled s) (targetOf s.modeAct (sampled s))) := by
  simp [fullTick_eq, emitPhase_eq, sampled]

/-- What a full tick does to the cells (R166). -/
theorem fullTick_cells (s : State) :
    (fullTick s).cells = (controlPhase (sampled s) (targetOf s.modeAct (sampled s))).cells := rfl

/-! ### Frames -/

/-- LATCHCFG writes the cells, the active grid and ERR, and nothing else (R165). -/
theorem latchConfig_frame (s : State) :
    latchConfig s = { s with
      cells := (latchConfig s).cells, nAct := (latchConfig s).nAct, mAct := (latchConfig s).mAct
      err := (latchConfig s).err } := by
  obtain ⟨-, h⟩ | ⟨-, -, -, h⟩ | ⟨-, -, h⟩ := latchConfig_cases s <;> rw [h] <;> rfl

/-- The sampling phase writes ERR, and nothing else (R103). -/
theorem raiseDegen_frame (m : Mode) (s : State) : raiseDegen m s = { s with err := (raiseDegen m s).err } := by
  unfold raiseDegen
  split <;> rfl

/-- A full tick writes the cells, the active grid, TX, ERR, FRAME_VALID and BUSY, and nothing else (R166). -/
theorem fullTick_frame (s : State) :
    fullTick s = { s with
      cells := (fullTick s).cells, nAct := (fullTick s).nAct, mAct := (fullTick s).mAct, tx := (fullTick s).tx
      err := (fullTick s).err, frameValid := false, busy := false } := by
  rw [fullTick_eq]
  simp only [emitPhase_eq, emitBytes, controlPhase, sampled]
  rw [raiseDegen_frame, latchConfig_frame]

/-! ### Flags -/

/-- LATCHCFG raises BADGRID exactly for an invalid request (R165). -/
theorem hasErr_latchConfig (s : State) (f : ErrFlag) :
    (latchConfig s).hasErr f = (s.hasErr f || (decide (f = .badGrid) && !s.gridValid)) := by
  obtain ⟨hv, h⟩ | ⟨hv, -, -, h⟩ | ⟨hv, -, h⟩ := latchConfig_cases s
  · rw [h, hasErr_raise]
    simp [hv]
  · rw [h]
    simp [hv]
  · rw [h]
    simp only [hv, Bool.not_true, Bool.and_false, Bool.or_false]
    rfl

/-- The sampling phase raises DEGEN exactly for degenerate blocks (R103). -/
theorem hasErr_raiseDegen (m : Mode) (s : State) (f : ErrFlag) :
    (raiseDegen m s).hasErr f = (s.hasErr f || (decide (f = .degen) && degenerate m s)) := by
  unfold raiseDegen
  split
  · rw [hasErr_raise]
    simp [*]
  · simp [*]

/-- Emitting raises TXFAIL exactly when a byte was emitted and the pin reported a failure (R144, R195). -/
theorem hasErr_emitBytes (bs : List Byte) (s : State) (f : ErrFlag) :
    (emitBytes bs s).hasErr f = (s.hasErr f || (decide (f = .txFail) && (s.pins.txFail && !bs.isEmpty))) := by
  simp only [State.hasErr, emitBytes_err]
  split
  · rename_i h
    rw [getLsbD_setErr, h, Bool.and_true]
    congr 1
    exact decide_eq_decide.2 ⟨errBit_injective, fun e => e ▸ rfl⟩
  · rename_i h
    simp only [Bool.not_eq_true] at h
    rw [h]
    simp

end Sys2Proof.Machine
end

