-- ==== Sys2Proof/Laws/Bus.lean ====
section
/-! SUPPORT. What a bus access can do, said once (R157, R158, R160). -/

namespace Sys2Proof.Machine

/-! ### Register numbers (R33, R34, R68) -/

theorem ne_of_branches {α : Type} {p : Prop} [Decidable p] {a b x : α} (ha : a ≠ x) (hb : b ≠ x) :
    (if p then a else b) ≠ x := by
  split <;> assumption

/-- Only register number 0 is CMD. -/
theorem regOf_ne_cmd {n : Word} (hn : n ≠ 0) : regOf n ≠ .cmd := by
  unfold regOf
  rw [if_neg hn]
  iterate 16 refine ne_of_branches nofun ?_
  split <;> exact nofun

/-- The register numbers of the gamma table. -/
theorem regOf_glut {n : Word} {i : Nat} (hi : i < 256) (h : n.toNat = 0x100 + i) : regOf n = .glut ⟨i, hi⟩ := by
  unfold regOf
  have ne : ∀ k : Word, k.toNat ≤ 0x10 → n ≠ k := fun k hk e => by subst e; omega
  iterate 17 rw [if_neg (ne _ (by decide))]
  rw [dif_pos (by omega)]
  exact congrArg Reg.glut (Fin.ext (by show n.toNat - 0x100 = i; omega))

/-- The register numbers outside the map. -/
theorem regOf_unmapped {n : Word} (h : 0x010 < n.toNat ∧ n.toNat < 0x100 ∨ 0x1FF < n.toNat) :
    regOf n = .unmapped := by
  unfold regOf
  have ne : ∀ k : Word, k.toNat ≤ 0x10 → n ≠ k := fun k hk e => by subst e; omega
  iterate 17 rw [if_neg (ne _ (by decide))]
  rw [dif_neg (by omega)]

/-! ### Writes -/

/-- Everything a write of the command word can do (R35, R91, R158). -/
theorem command_cases (v : Word) (s : State) :
    (v = 1 ∧ command v s = startBlock s) ∨ (v = 2 ∧ command v s = tickBlock s) ∨
    (v = 3 ∧ command v s = requestClose s) ∨
    ((v ≠ 1 ∧ v ≠ 2 ∧ v ≠ 3) ∧ command v s = raise .badCmd s) := by
  unfold command
  by_cases h₁ : v = 1
  · exact .inl ⟨h₁, if_pos h₁⟩
  · by_cases h₂ : v = 2
    · exact .inr (.inl ⟨h₂, by rw [if_neg h₁, if_pos h₂]⟩)
    · by_cases h₃ : v = 3
      · exact .inr (.inr (.inl ⟨h₃, by rw [if_neg h₁, if_neg h₂, if_pos h₃]⟩))
      · exact .inr (.inr (.inr ⟨⟨h₁, h₂, h₃⟩, by rw [if_neg h₁, if_neg h₂, if_neg h₃]⟩))

/-- What a register write can do: a command, a refusal with BADWR, or one register of the file changed (R158). -/
inductive WriteEffect (v : Word) (s : State) : State → Prop where
  | command : WriteEffect v s (command v s)
  | refused : WriteEffect v s (raise .badWr s)
  | mode (m : Mode) (h : s.st = .idle) (hm : modeOf v = some m) : WriteEffect v s { s with mode := m }
  | gridN : WriteEffect v s { s with gridN := v }
  | gridM : WriteEffect v s { s with gridM := v }
  | kp : WriteEffect v s { s with kp := v.setWidth 16 }
  | smooth : WriteEffect v s { s with smooth := v.setWidth 16 }
  | noise : WriteEffect v s { s with noise := v.setWidth 16 }
  | gap : WriteEffect v s { s with gap := v.setWidth 16 }
  | frameValid : WriteEffect v s { s with frameValid := v.getLsbD 0 }
  | cellSel : WriteEffect v s { s with cellSel := v.setWidth 16 }
  | glut (i : Fin 256) (h : s.st = .idle) :
      WriteEffect v s { s with glut := s.glut.set i.val (v.setWidth 16) i.isLt }

/-- Everything a register write can do (R158). -/
theorem writeReg_cases (r : Reg) (v : Word) (s : State) : WriteEffect v s (writeReg r v s) := by
  cases r with
  | cmd => exact .command
  | status => exact .refused
  | err => exact .refused
  | mode =>
    simp only [writeReg]
    split
    · rename_i m hm
      split
      · rename_i h
        exact .mode m h hm
      · exact .refused
    · exact .refused
  | gridN => exact .gridN
  | gridM => exact .gridM
  | kp => exact .kp
  | smooth => exact .smooth
  | noise => exact .noise
  | gap => exact .gap
  | frameValid => exact .frameValid
  | nAct => exact .refused
  | mAct => exact .refused
  | modeAct => exact .refused
  | cellSel => exact .cellSel
  | cellCur => exact .refused
  | cellSm => exact .refused
  | glut i =>
    simp only [writeReg]
    split
    · rename_i h
      exact .glut i h
    · exact .refused
  | unmapped => exact .refused

/-- Everything a pixel write can do (R160). -/
theorem writePixel_cases (a : Nat) (b : Byte) (s : State) :
    (a < s.frameSize ∧ writePixel a b s = { s with fb := s.fb.write a b }) ∨
    (¬ a < s.frameSize ∧ writePixel a b s = raise .badWr s) := by
  unfold writePixel
  by_cases h : a < s.frameSize
  · exact .inl ⟨h, if_pos h⟩
  · exact .inr ⟨h, if_neg h⟩

end Sys2Proof.Machine
end

