-- ==== Sys2Proof/Laws/PerInstr.lean ====
section
/-! SUPPORT. Statements about every operation, one lemma per constructor. -/

namespace Sys2Proof.Laws

/-- The encoding of an operation has 1 to 12 bytes. -/
def EncodeLength.Statement (i : Instr) : Prop := 1 ≤ (encode i).length ∧ (encode i).length ≤ 12

namespace EncodeLength

theorem length_word (w : Word) : (bytesOfWord w).length = 4 := length_bytesOf 4 _

theorem length_q (q : Int) : (bytesOfQ q).length = 4 := length_bytesOf 4 _

theorem start : Statement .start := ⟨by decide, by decide⟩

theorem tick : Statement .tick := ⟨by decide, by decide⟩

theorem close : Statement .close := ⟨by decide, by decide⟩

theorem rdreg (n : Word) : Statement (.rdreg n) := by simp [Statement, encode, length_word]

theorem wrreg (n v : Word) : Statement (.wrreg n v) := by simp [Statement, encode, length_word]

theorem wrfb (a : Word) (b : Byte) : Statement (.wrfb a b) := by simp [Statement, encode, length_word]

theorem reset : Statement .reset := ⟨by decide, by decide⟩

theorem latchcfg : Statement .latchcfg := ⟨by decide, by decide⟩

theorem sampleAbs : Statement .sampleAbs := ⟨by decide, by decide⟩

theorem sampleDelta : Statement .sampleDelta := ⟨by decide, by decide⟩

theorem sampleSingle : Statement .sampleSingle := ⟨by decide, by decide⟩

theorem ctrl (r c : Byte) (t : Target) : Statement (.ctrl r c t) := by
  cases t <;> simp [Statement, encode, length_q]

theorem encAbs (q : Int) : Statement (.encAbs q) := by simp [Statement, encode, length_q]

theorem encDelta (q : Int) : Statement (.encDelta q) := by simp [Statement, encode, length_q]

theorem emit (r c v : Byte) : Statement (.emit r c v) := by simp [Statement, encode]

theorem tauClose : Statement .tauClose := ⟨by decide, by decide⟩

theorem tauStop : Statement .tauStop := ⟨by decide, by decide⟩

theorem ledcmd (row col value : Byte) : Statement (.ledcmd row col value) := by
  have h := length_ledLine row.toNat col.toNat value.toNat
  exact ⟨by simp only [encode]; omega, by simp only [encode]; omega⟩

end EncodeLength

end Sys2Proof.Laws
end

