-- ==== Sys2Proof/Laws/Step.lean ====
section
/-! SUPPORT. What one step can do, said once (R155, R170), and the meaning each event runs. -/

namespace Sys2Proof.Machine

theorem enabledTau_cases (s : State) :
    (s.closeEnabled = true ∧ enabledTau s = some .tauClose) ∨
    (s.closeEnabled = false ∧ s.stopEnabled = true ∧ enabledTau s = some .tauStop) ∨
    (s.closeEnabled = false ∧ s.stopEnabled = false ∧ enabledTau s = none) := by
  unfold enabledTau
  cases s.closeEnabled <;> cases s.stopEnabled <;> simp

/-- Everything a step that answers a next state can have done. -/
inductive StepEffect (s : State) : State → Prop where
  /-- Nothing pending, nothing enabled. -/
  | quiet (h : s.pending = []) (he : enabledTau s = none) : StepEffect s s
  /-- Nothing pending, and the block's own transition fires. -/
  | internal (i : Instr) (t : State) (h : s.pending = []) (he : enabledTau s = some i) (hx : exec i s = .next t) :
      StepEffect s t
  /-- The head record's operation. -/
  | event (rec : Record) (rest : List Record) (i : Instr) (t : State) (h : s.pending = rec :: rest)
      (hd : decode rec.bytes = .ok i) (hx : exec i (takeRecord rec rest s) = .next t) : StepEffect s t
  /-- A reserved command word. -/
  | reserved (rec : Record) (rest : List Record) (v : Word) (h : s.pending = rec :: rest)
      (hd : decode rec.bytes = .error (.reservedCommand v)) : StepEffect s (command v (takeRecord rec rest s))

/-- Everything a step can do (R155, R170). -/
theorem step_cases {s t : State} (h : step s = .next t) : StepEffect s t := by
  unfold step fetch at h
  cases hp : s.pending with
  | nil =>
    simp only [hp] at h
    cases he : enabledTau s with
    | none =>
      simp only [he, Host.Outcome.next.injEq] at h
      exact h ▸ .quiet hp he
    | some i =>
      simp only [he] at h
      exact .internal i t hp he h
  | cons rec rest =>
    simp only [hp] at h
    cases hd : decode rec.bytes with
    | ok i =>
      simp only [hd] at h
      exact .event rec rest i t hp hd h
    | error e =>
      cases e <;> simp only [hd, Host.Outcome.next.injEq, reduceCtorEq] at h
      exact h ▸ .reserved rec rest _ hp hd

/-- The decoder answers `reservedCommand` only for a reserved word (R91). -/
theorem decodeCommand_reserved {v w : Word} (h : decodeCommand v = .error (.reservedCommand w)) :
    w = v ∧ v ≠ 1 ∧ v ≠ 2 ∧ v ≠ 3 := by
  unfold decodeCommand at h
  split at h
  · cases h
  · split at h
    · cases h
    · split at h
      · cases h
      · cases h
        exact ⟨rfl, by assumption, by assumption, by assumption⟩

/-- Every operation answers a next state, in every state (R221, 93 part 1). -/
theorem exec_answers (i : Instr) (s : State) : ∃ t, exec i s = .next t := by
  cases i with
  | ctrl r c t =>
    simp only [exec, execCtrl]
    split <;> exact ⟨_, rfl⟩
  | _ => exact ⟨_, rfl⟩

end Sys2Proof.Machine
end

