-- ==== Sys2Proof/Tests/Slice0.lean ====
section
/-! SUPPORT. Tests of the model. Expected values are those of 95_test_vectors.md (V1 to V53, programs P1 to P6) or are
worked out from the rule the test names; then, for every statement with hypotheses, a witness that meets them. -/

namespace Sys2Proof.Tests

open Sys2Proof Sys2Proof.Machine Sys2Proof.Statements

/-! ### Helpers -/

/-- Whether an outcome is a next state with a property. -/
def after (o : Host.Outcome State Fault Refusal) (p : State → Bool) : Bool :=
  match o with
  | .next t => p t
  | .fault _ => false
  | .refused _ => false

/-- The frame of V10. -/
def frameV10 : Memory :=
  [(0, 0), (1, 0), (2, 255), (3, 255), (4, 0), (5, 0), (6, 255), (7, 255), (8, 10), (9, 20), (10, 100), (11, 101),
    (12, 30), (13, 40), (14, 102), (15, 103)]

/-- The frame of V13. -/
def frameV13 : Memory :=
  [(0, 10), (1, 20), (2, 30), (3, 40), (4, 99), (5, 50), (6, 60), (7, 70), (8, 80), (9, 10), (10, 20), (11, 30),
    (12, 40), (13, 99), (14, 50), (15, 60), (16, 70), (17, 80)]

/-- The reset instance in RUNNING with a frame to take. -/
def running : State := { State.reset with st := .running, srcHeld := true, txHeld := true, frameValid := true }

/-- `running` with an active and a requested grid of n × m. -/
def runningGrid (n m : Byte) : State :=
  { running with nAct := n, mAct := m, gridN := n.setWidth 32, gridM := m.setWidth 32 }

/-- `running` on a 1 × 2 frame, DELTA mode, a 1 × 1 grid. -/
def runningDelta (l r : Byte) : State :=
  { runningGrid 1 1 with
    params := { height := 1, width := 2, nmax := 5, mmax := 5, gapReset := 0 }
    mode := .delta, modeAct := .delta, fb := [(0, l), (1, r)] }

/-- Program P1 before step 7: a 1 × 1 frame of value 255, SINGLE mode, a 1 × 1 grid. -/
def runningP1 : State :=
  { runningGrid 1 1 with
    params := { height := 1, width := 1, nmax := 5, mmax := 5, gapReset := 0 }
    mode := .single, modeAct := .single, fb := [(0, 255)] }

/-- The cells of V50, CUR and SM alike. -/
def cellsV50 : Cells :=
  { fill := .zero
    cur := [((0, 0), 100), ((0, 1), 200), ((1, 0), 300), ((1, 1), 400)]
    sm := [((0, 0), 100), ((0, 1), 200), ((1, 0), 300), ((1, 1), 400)] }

/-- One cell with the values (cur, sm), every other cell 0. -/
def oneCell (cur sm : Int) : Cells := Cells.put { fill := .zero, cur := [], sm := [] } 0 0 (.ofInt 18 cur) (.ofInt 18 sm)

/-- The pins of an event without a failure, and with one. -/
def pinsReady : Pins := { transportReady := true, sourceReady := true, txFail := false }

/-! ### Well-formed operations (R100, R129, R141, R142) -/

theorem test_wellFormed_ctrl_high : (Instr.ctrl 0 0 (.value 65281)).wellFormed = false := by decide
theorem test_wellFormed_ctrl_low : (Instr.ctrl 0 0 (.value (-65281))).wellFormed = false := by decide
theorem test_wellFormed_encAbs_high : (Instr.encAbs 65281).wellFormed = false := by decide
theorem test_wellFormed_encAbs_low : (Instr.encAbs (-1)).wellFormed = false := by decide
theorem test_wellFormed_encDelta_high : (Instr.encDelta 65281).wellFormed = false := by decide
theorem test_wellFormed_encDelta_low : (Instr.encDelta (-65281)).wellFormed = false := by decide

/-! ### Decoding. Formats C, M (the bare tags) and L are the spec's words (R81, R83, R84); the other records are the
model's carriers of the spec's tuples (R82, R85, R90; log 3). -/

theorem test_decode_start : decode [0x01, 0x00, 0x00, 0x00] = .ok .start := by decide
theorem test_decode_tick : decode [0x02, 0x00, 0x00, 0x00] = .ok .tick := by decide
theorem test_decode_close : decode [0x03, 0x00, 0x00, 0x00] = .ok .close := by decide
theorem test_decode_reserved : decode [0x01, 0x01, 0x00, 0x00] = .error (.reservedCommand 0x101) := by decide
theorem test_decode_rdreg : decode [0x42, 0, 0x26, 0x01, 0, 0] = .ok (.rdreg 0x126) := by decide
theorem test_decode_wrreg :
    decode [0x42, 1, 0x06, 0, 0, 0, 0x66, 0x26, 0x01, 0] = .ok (.wrreg 0x006 0x00012666) := by decide
theorem test_decode_wrfb : decode [0x42, 2, 15, 0, 0, 0, 9] = .ok (.wrfb 15 9) := by decide
theorem test_decode_reset : decode [0x50, 0] = .ok .reset := by decide
theorem test_decode_latchcfg : decode [0x4D, 0] = .ok .latchcfg := by decide
theorem test_decode_sampleAbs : decode [0x00] = .ok .sampleAbs := by decide
theorem test_decode_sampleDelta : decode [0x01] = .ok .sampleDelta := by decide
theorem test_decode_sampleSingle : decode [0x02] = .ok .sampleSingle := by decide
theorem test_decode_tag3 : decode [0x03] = .error (.reservedModeTag 3) := by decide
theorem test_decode_ctrl :
    decode [0x4D, 4, 1, 2, 1, 0x00, 0x01, 0xFF, 0xFF] = .ok (.ctrl 1 2 (.value (-65280))) := by decide
theorem test_decode_ctrl_skip : decode [0x4D, 4, 1, 2, 0] = .ok (.ctrl 1 2 .skip) := by decide
theorem test_decode_encAbs : decode [0x4D, 5, 0x88, 0x15, 0, 0] = .ok (.encAbs 5512) := by decide
theorem test_decode_encDelta : decode [0x4D, 6, 0x78, 0xEA, 0xFF, 0xFF] = .ok (.encDelta (-5512)) := by decide
theorem test_decode_emit : decode [0x4D, 7, 4, 5, 255] = .ok (.emit 4 5 255) := by decide
theorem test_decode_tauClose : decode [0x54, 0] = .ok .tauClose := by decide
theorem test_decode_tauStop : decode [0x54, 1] = .ok .tauStop := by decide
/-- V45. -/
theorem test_decode_ledcmd :
    decode [0x32, 0x35, 0x34, 0x2C, 0x32, 0x35, 0x34, 0x2C, 0x31, 0x32, 0x38, 0x0A] = .ok (.ledcmd 254 254 128) := by
  decide
/-- A leading zero is no numeral of the grammar (R88, R95). -/
theorem test_decode_leading_zero : decode [0x30, 0x30, 0x2C, 0x30, 0x2C, 0x30, 0x0A] = .error .malformedLine := by decide

theorem test_tableWord_start : decodeTableWord 32 1 = some .start := by decide
theorem test_tableWord_sampleDelta : decodeTableWord 8 1 = some .sampleDelta := by decide

/-! ### Arithmetic (V1, V2, V3, V20, V21) -/

theorem test_rshr : [rshr 127 8, rshr 128 8, rshr 384 8, rshr (-128) 8, rshr (-129) 8, rshr (-32768) 16,
    rshr (-32769) 16] = [0, 1, 2, 0, -1, 0, -1] := by decide
theorem test_divr : [divr 1 2, divr 1 3, divr 256 3, divr 512 3, divr 261120 4, divr 256 512]
    = [1, 0, 85, 171, 65280, 1] := by decide
theorem test_clamp : [clamp (-5) 0 65280, clamp 70000 0 65280, clamp (-70000) (-65280) 65280, clamp 123 0 65280]
    = [0, 65280, -65280, 123] := by decide
theorem test_gam : [gam glutReset 1, gam glutReset 128, gam glutReset 257, gam glutReset 9792, gam glutReset 65279,
    gam glutReset 65280] = [21, 2630, 5267, 27560, 65280, 65280] := by decide +kernel
theorem test_sgam : [sgam glutReset (-1), sgam glutReset (-9792), sgam glutReset (-65280), sgam glutReset 0]
    = [-21, -27560, -65280, 0] := by decide +kernel

/-! ### Memory -/

theorem test_reset_memory_wf : State.reset.fb.wf = true := by decide
/-- A rewritten byte keeps one entry, in its place (R160). -/
theorem test_write_canonical : Memory.write (Memory.write [(3, 7)] 1 5) 3 9 = [(1, 5), (3, 9)] := by decide

/-! ### One step of each operation -/

/-- V51, row 1. -/
theorem test_start_runs : after (exec .start State.reset) (fun t => statusWord t == 0x31 && t.err == 0) = true := by
  decide +kernel
/-- V51, row 2. -/
theorem test_start_fatal :
    after (exec .start { State.reset with pins := { pinsReady with transportReady := false } })
      (fun t => statusWord t == 0x03 && t.err == 0x01) = true := by decide +kernel
/-- P1, step 7. -/
theorem test_tick_full :
    after (exec .tick runningP1)
      (fun t => t.tx == [0x30, 0x2C, 0x30, 0x2C, 0x32, 0x32, 0x0A] && t.curQ 0 0 == 9792 && t.smQ 0 0 == 5512
        && !t.frameValid) = true := by decide +kernel
/-- V52, row 3. -/
theorem test_tick_skipped :
    after (exec .tick { running with frameValid := false }) (fun t => t.err == 0x02 && t.tx == []) = true := by
  decide +kernel
/-- P6, step 2. -/
theorem test_close : after (exec .close State.reset) (fun t => statusWord t == 0x08) = true := by decide +kernel
/-- V53. -/
theorem test_rdreg_glut : after (exec (.rdreg 0x126) State.reset) (fun t => t.rdData == 27478) = true := by decide +kernel
/-- P3, end state: CELL_SM is sign-extended. -/
theorem test_rdreg_cellSm :
    after (exec (.rdreg 0x010) { running with cells := oneCell 0 (-2117) }) (fun t => t.rdData == 0xFFFFF7BB) = true := by
  decide +kernel
/-- V53. -/
theorem test_wrreg_truncates :
    after (exec (.wrreg 0x006 0x00012666) State.reset) (fun t => t.kp == 9830 && t.err == 0) = true := by decide +kernel
/-- V53. -/
theorem test_wrreg_mode3 :
    after (exec (.wrreg 0x003 3) State.reset) (fun t => t.mode == .abs && t.err == 0x40) = true := by decide +kernel
/-- V53: the last address of the frame space. -/
theorem test_wrfb : after (exec (.wrfb 15 9) State.reset) (fun t => t.pixel 15 == 9 && t.err == 0) = true := by
  decide +kernel
/-- V53: the first address outside it. -/
theorem test_wrfb_outside : after (exec (.wrfb 16 9) State.reset) (fun t => t.fb == [] && t.err == 0x40) = true := by
  decide +kernel
/-- R215, R217. -/
theorem test_reset :
    after (exec .reset { running with err := 0xFF, tx := [0x30], kp := 1 })
      (fun t => statusWord t == 0 && t.err == 0 && t.tx == [0x30] && t.kp == 9830) = true := by decide +kernel
/-- V50: 2 × 2 to 3 × 1 keeps the overlap and zeroes the rest. -/
theorem test_latchcfg_resize :
    after (exec .latchcfg { runningGrid 2 2 with cells := cellsV50, gridN := 3, gridM := 1 })
      (fun t => t.nAct == 3 && t.mAct == 1 && t.smQ 0 0 == 100 && t.smQ 1 0 == 300 && t.smQ 0 1 == 0
        && t.smQ 1 1 == 0) = true := by decide +kernel
/-- V50: an invalid request. -/
theorem test_latchcfg_bad :
    after (exec .latchcfg { runningGrid 2 2 with cells := cellsV50, gridN := 2, gridM := 9 })
      (fun t => t.cells == cellsV50 && t.mAct == 2 && t.err == 0x04) = true := by decide +kernel
/-- V10, row 1. -/
theorem test_sampleAbs :
    after (exec .sampleAbs { runningGrid 2 2 with fb := frameV10 })
      (fun t => t.targets == [[.value 0, .value 65280], [.value 6400, .value 25984]] && t.err == 0) = true := by
  decide +kernel
/-- V10, row 5. -/
theorem test_sampleAbs_degenerate :
    after (exec .sampleAbs { runningGrid 5 1 with fb := frameV10 })
      (fun t => t.targets == [[.skip], [.skip], [.skip], [.skip], [.skip]] && t.err == 0x10) = true := by decide +kernel
/-- V13, row 1. -/
theorem test_sampleDelta :
    after (exec .sampleDelta { runningGrid 1 2 with
        params := { height := 2, width := 9, nmax := 5, mmax := 5, gapReset := 0 }, gap := 1, fb := frameV13 })
      (fun t => t.targets == [[.value 10240, .value 10240]] && t.err == 0) = true := by decide +kernel
/-- V14. -/
theorem test_sampleDelta_negative :
    after (exec .sampleDelta (runningDelta 255 0)) (fun t => t.targets == [[.value (-65280)]]) = true := by
  decide +kernel
/-- V15: the display grid 1 × 1. -/
theorem test_sampleSingle :
    after (exec .sampleSingle { runningGrid 1 1 with fb := frameV10 })
      (fun t => t.targets == [[.value 24416]] && t.err == 0) = true := by decide +kernel
/-- V22: the dead-band row, CUR held and SM moving. -/
theorem test_ctrl_dead_band :
    after (exec (.ctrl 0 0 (.value 1280)) { running with cells := oneCell 192 789 })
      (fun t => t.curQ 0 0 == 192 && t.smQ 0 0 == 1420) = true := by decide +kernel
/-- V23, row 3. -/
theorem test_ctrl_delta :
    after (exec (.ctrl 0 0 (.value (-10240))) { running with modeAct := .delta, cells := oneCell 1536 2375 })
      (fun t => t.curQ 0 0 == -356 && t.smQ 0 0 == 696) = true := by decide +kernel
/-- V30: the tie 65152 rounds up. -/
theorem test_encAbs : after (exec (.encAbs 65152) State.reset) (fun t => t.encValue == 255) = true := by decide +kernel
theorem test_encAbs_below : after (exec (.encAbs 65151) State.reset) (fun t => t.encValue == 254) = true := by
  decide +kernel
/-- V31. -/
theorem test_encDelta : after (exec (.encDelta (-1)) State.reset) (fun t => t.encValue == 127) = true := by
  decide +kernel
theorem test_encDelta_tie : after (exec (.encDelta (-65024)) State.reset) (fun t => t.encValue == 1) = true := by
  decide +kernel
/-- V43. -/
theorem test_emit :
    after (exec (.emit 4 4 255) State.reset)
      (fun t => t.tx == [0x34, 0x2C, 0x34, 0x2C, 0x32, 0x35, 0x35, 0x0A] && t.err == 0) = true := by decide +kernel
/-- P5, step 8: a failure sets TXFAIL and the byte stays in TX (R195). -/
theorem test_emit_fail :
    after (exec (.emit 1 0 7) { State.reset with pins := { pinsReady with txFail := true } })
      (fun t => t.tx == [0x31, 0x2C, 0x30, 0x2C, 0x37, 0x0A] && t.err == 0x08) = true := by decide +kernel
/-- P5, step 10. -/
theorem test_tauClose :
    after (exec .tauClose { running with closeReq := true }) (fun t => t.st == .shutting && t.srcHeld) = true := by
  decide +kernel
/-- P5, steps 11 and 14. -/
theorem test_tauStop :
    after (exec .tauStop { running with closeReq := true, st := .shutting }) (fun t => statusWord t == 0x4B) = true := by
  decide +kernel
/-- R148: the later line replaces what the earlier one asked of the same element. -/
theorem test_ledcmd :
    after (exec (.ledcmd 1 2 9) { State.reset with asked := [((1, 2), 5)] })
      (fun t => t.asked == [((1, 2), 9)] && t.tx == []) = true := by decide +kernel

/-! ### Steps -/

/-- The word of START, placed as the next event, runs START. -/
theorem test_step_start : after (step (State.reset.withFetchWord 32 1)) (fun t => t.st == .running) = true := by
  decide +kernel
/-- A reserved command word raises BADCMD (R91). -/
theorem test_step_reserved : after (step (State.reset.withFetchWord 32 4)) (fun t => t.err == 0x20) = true := by
  decide +kernel
/-- From reset nothing happens by itself (R213). -/
theorem test_step_quiet : step State.reset = .next State.reset := rfl

/-! ### Good states for the witnesses -/

/-- What is left to check of a good state whose cells are all 0. -/
def blankChecks (s : State) : Bool :=
  s.params.wf && s.fb.wf && s.fb.all (fun e => decide (e.1 < s.frameSize))
    && decide (1 ≤ s.nAct.toNat ∧ s.nAct.toNat ≤ s.params.nmax)
    && decide (1 ≤ s.mAct.toNat ∧ s.mAct.toNat ≤ s.params.mmax)
    && !s.busy && !s.hasErr .overrun
    && decide (s.srcHeld = decide (s.st = .running ∨ s.st = .shutting) ∧ s.txHeld = s.srcHeld)
    && decide (s.st = .shutting → s.closeReq = true) && decide (s.st = .idle → s.modeAct = .abs)
    && s.pending.all Record.isEvent

theorem safe_of_blank {s : State} (hc : s.cells = { fill := .zero, cur := [], sm := [] })
    (h : blankChecks s = true) : Safe s := by
  simp only [blankChecks, Bool.and_eq_true, decide_eq_true_eq, Bool.not_eq_true', List.all_eq_true] at h
  obtain ⟨⟨⟨⟨⟨⟨⟨⟨⟨⟨h₁, h₂⟩, h₃⟩, h₄⟩, h₅⟩, h₆⟩, h₇⟩, h₈⟩, h₉⟩, h₁₀⟩, h₁₁⟩ := h
  have z : ∀ r c, s.curQ r c = 0 ∧ s.smQ r c = 0 := fun r c => by
    simp only [State.curQ, State.smQ, hc]
    exact ⟨rfl, rfl⟩
  have lo : rangeLo s.modeAct ≤ 0 := by rcases rangeLo_cases s.modeAct with e | e <;> omega
  exact {
    params := h₁
    frameBuffer := h₂
    frameSpace := fun a ha => by
      cases e : s.fb.read? a with
      | none => exact absurd e ha
      | some b => exact h₃ _ (mem_of_listed e)
    cells := by rw [hc]; rfl
    rows := h₄
    columns := h₅
    notBusy := h₆
    noOverrun := h₇
    held := h₈
    closing := h₉
    idle := fun e => ⟨h₁₀ e, z⟩
    specified := fun _ => by rw [hc]
    range := fun _ r c => by rw [(z r c).1, (z r c).2]; exact ⟨lo, by decide, lo, by decide⟩
    canonicalZero := fun _ r c _ => z r c
    events := h₁₁ }

theorem safe_running : Safe running := safe_of_blank rfl (by decide +kernel)

theorem inRange_running : running.CellsInRange := safe_running.range rfl

/-- `running` with a close request and a TICK still to come. -/
def closing : State :=
  { running with closeReq := true, pending := [{ pins := pinsReady, bytes := [0x02, 0x00, 0x00, 0x00] }] }

theorem safe_closing : Safe closing := safe_of_blank rfl (by decide +kernel)

/-- STOPPED after a fatal start, as in P4. -/
def stopped : State := { State.reset with st := .stopped, err := 0x01 }

/-! ### Witnesses: for each statement, values that meet its hypotheses, at the boundaries of its clauses -/

theorem test_witness_DecodeOfEncodeIsTheOperation :
    (Instr.ctrl 254 0 (.value (-65280))).wellFormed = true ∧ (Instr.encAbs 65280).wellFormed = true ∧
    (Instr.encAbs 0).wellFormed = true ∧ (Instr.ledcmd 0 255 10).wellFormed = true := by decide

theorem test_witness_EncodeOfDecodeIsTheRecord :
    decode [0x4D, 4, 1, 2, 1, 0x00, 0x01, 0xFF, 0xFF] = .ok (.ctrl 1 2 (.value (-65280))) ∧
    decode [0x30, 0x2C, 0x31, 0x30, 0x2C, 0x32, 0x35, 0x35, 0x0A] = .ok (.ledcmd 0 10 255) := by decide

/-- The reserved words next to the three commands, and the one that differs in a high byte. -/
theorem test_witness_ReservedCommandWordOnlyRaisesBadcmd :
    ((0 : Word) ≠ 1 ∧ (0 : Word) ≠ 2 ∧ (0 : Word) ≠ 3) ∧ ((4 : Word) ≠ 1 ∧ (4 : Word) ≠ 2 ∧ (4 : Word) ≠ 3) ∧
    ((0x101 : Word) ≠ 1 ∧ (0x101 : Word) ≠ 2 ∧ (0x101 : Word) ≠ 3) := by decide

theorem test_witness_ReservedCommandRecordOnlyRaisesBadcmd :
    ((4 : Word) ≠ 1 ∧ (4 : Word) ≠ 2 ∧ (4 : Word) ≠ 3) ∧
    (State.reset.withFetchWord 32 4).pending = { pins := pinsReady, bytes := bytesOfWord 4 } :: [] := by decide +kernel

theorem test_witness_DecIsTheDecimalNumeral :
    (1 ≤ 1 ∧ 1 ≤ 255) ∧ (1 ≤ 255 ∧ 255 ≤ 255) ∧ dec 9 = [0x39] ∧ dec 10 = [0x31, 0x30] ∧ dec 99 = [0x39, 0x39] ∧
    dec 100 = [0x31, 0x30, 0x30] := by decide

theorem test_witness_StepRunsTheNextEvent :
    (State.reset.withFetchWord 32 1).pending = { pins := pinsReady, bytes := [1, 0, 0, 0] } :: [] ∧
    decode [1, 0, 0, 0] = .ok .start := by decide +kernel

/-- `running` with a close request and nothing to come. -/
def quietClosing : State := { running with closeReq := true }

/-- One state for each clause. -/
theorem test_witness_QuietStepFiresTheEnabledTransition :
    (quietClosing.pending = [] ∧ quietClosing.st = .running ∧ quietClosing.closeReq = true ∧
      quietClosing.busy = false) ∧
    (({ quietClosing with st := .shutting } : State).pending = [] ∧
      ({ quietClosing with st := .shutting } : State).st = .shutting) ∧
    (State.reset.pending = [] ∧ State.reset.st = .idle) ∧ (stopped.pending = [] ∧ stopped.st = .stopped) ∧
    (running.pending = [] ∧ running.st = .running ∧ running.closeReq = false) ∧
    (({ quietClosing with busy := true } : State).pending = [] ∧
      ({ quietClosing with busy := true } : State).st = .running ∧
      ({ quietClosing with busy := true } : State).busy = true) := by decide

/-- IDLE with a close request, a reserved command word and a START still to come. -/
def idleClosing : State :=
  { State.reset with
    closeReq := true
    pending := [{ pins := pinsReady, bytes := [0x04, 0x00, 0x00, 0x00] },
      { pins := pinsReady, bytes := [0x01, 0x00, 0x00, 0x00] }] }

/-- A run that begins in RUNNING, and one that begins in IDLE with a reserved command word. -/
theorem test_witness_CloseAlwaysEndsTheRun :
    (Safe closing ∧ closing.closeReq = true ∧
      ∀ rec ∈ closing.pending, (∃ i, decode rec.bytes = .ok i ∧ i.isEvent = true ∧ i ≠ .reset) ∨
        ∃ v, decode rec.bytes = .error (.reservedCommand v)) ∧
    (Safe idleClosing ∧ idleClosing.closeReq = true ∧
      ∀ rec ∈ idleClosing.pending, (∃ i, decode rec.bytes = .ok i ∧ i.isEvent = true ∧ i ≠ .reset) ∨
        ∃ v, decode rec.bytes = .error (.reservedCommand v)) := by
  refine ⟨⟨safe_closing, rfl, fun rec hr => .inl ⟨.tick, ?_, rfl, by decide⟩⟩,
    safe_of_blank rfl (by decide +kernel), rfl, fun rec hr => ?_⟩
  · simp only [closing, List.mem_cons, List.not_mem_nil, or_false] at hr
    subst hr
    decide
  · simp only [idleClosing, List.mem_cons, List.not_mem_nil, or_false] at hr
    rcases hr with rfl | rfl
    · exact .inr ⟨4, by decide⟩
    · exact .inl ⟨.start, by decide, rfl, by decide⟩

/-- R49 at both ends: GLUT[1] = 5259 and GLUT[255] = 65280 (V53). -/
theorem test_witness_DefaultTableIsThePowerLaw :
    (1 ≤ 1 ∧ 1 ≤ 255) ∧ (1 ≤ 255 ∧ 255 ≤ 255) ∧ glutAt glutReset 1 = 5259 ∧ glutAt glutReset 255 = 65280 := by
  decide +kernel

/-- The smallest and the largest instance. -/
theorem test_witness_ResetStateIsSafe :
    ({ height := 1, width := 1, nmax := 5, mmax := 5, gapReset := 0 } : Params).wf = true ∧
    ({ height := 65535, width := 65535, nmax := 255, mmax := 255, gapReset := 65535 } : Params).wf = true := by decide

/-- The reset instance at an event with given pins. -/
def atPins (p : Pins) : State := { State.reset with pins := p }

/-- One state for each path. -/
theorem test_witness_StartFollowsItsFourPaths :
    running.st ≠ .idle ∧
    ((atPins { pinsReady with transportReady := false }).st = .idle ∧
      (atPins { pinsReady with transportReady := false }).pins.transportReady = false) ∧
    ((atPins { pinsReady with sourceReady := false }).st = .idle ∧
      (atPins { pinsReady with sourceReady := false }).pins.transportReady = true ∧
      (atPins { pinsReady with sourceReady := false }).pins.sourceReady = false) ∧
    ((atPins pinsReady).st = .idle ∧ (atPins pinsReady).pins.transportReady = true ∧
      (atPins pinsReady).pins.sourceReady = true) := by decide

theorem test_witness_StartFromResetRuns : Config.params.wf = true := by decide

/-- Requests at the boundaries 0, 1, NMAX and NMAX + 1, in a mode that resizes the cells and in SINGLE. -/
theorem test_witness_LatchcfgTakesValidGridsOnly :
    running.params.wf = true ∧
    ({ running with gridN := 0 } : State).gridValid = false ∧ ({ running with gridN := 9 } : State).gridValid = false ∧
    ({ running with gridN := 1, gridM := 8 } : State).gridValid = true ∧
    running.modeAct ≠ .single ∧ runningP1.modeAct = .single ∧
    running.gridN.toNat = running.nAct.toNat ∧ (1 : Word).toNat ≠ running.nAct.toNat := by decide +kernel

theorem test_witness_GrowingGridKeepsEveryCell :
    Safe { running with gridN := 8, gridM := 6 } ∧ running.cells.fill = .zero ∧
    ({ running with gridN := 8, gridM := 6 } : State).gridValid = true ∧ running.nAct.toNat ≤ (8 : Word).toNat ∧
    running.mAct.toNat ≤ (6 : Word).toNat :=
  ⟨safe_of_blank rfl (by decide +kernel), rfl, by decide +kernel, by decide, by decide⟩

/-- The smallest rectangle, on a frame whose one pixel is 255. -/
theorem test_witness_BlockMeanIsTheNearestInteger :
    (1 ≤ 1 ∧ 1 ≤ 1) ∧
    ∀ j < 1, ∀ i < 1, runningP1.pixel (pixelAddr runningP1 (0 + j) (0 + i)) = 255 := by
  refine ⟨⟨le_refl 1, le_refl 1⟩, fun j hj i hi => ?_⟩
  obtain rfl : j = 0 := by omega
  obtain rfl : i = 0 := by omega
  rfl

/-- A grid as large as the frame, and one larger. -/
theorem test_witness_SampleAbsReturnsBlockMeans :
    (1 ≤ (runningGrid 4 4).nAct.toNat ∧ 1 ≤ (runningGrid 4 4).mAct.toNat ∧
      ¬(running.params.height < (4 : Byte).toNat ∨ running.params.width < (4 : Byte).toNat)) ∧
    (1 ≤ (runningGrid 5 4).nAct.toNat ∧ running.params.height < (5 : Byte).toNat) := by decide

theorem test_witness_SampleDeltaReturnsDifferences :
    1 ≤ (runningDelta 7 7).nAct.toNat ∧ 1 ≤ (runningDelta 7 7).mAct.toNat ∧
    1 = (if (runningDelta 7 7).gap.toNat ≤ (runningDelta 7 7).params.width
      then ((runningDelta 7 7).params.width - (runningDelta 7 7).gap.toNat) / 2 else 0) ∧
    0 = (if ({ runningDelta 7 7 with gap := 3 } : State).gap.toNat ≤ (runningDelta 7 7).params.width
      then ((runningDelta 7 7).params.width - 3) / 2 else 0) := by decide

theorem test_witness_SampleSingleReturnsTheReferenceBlock :
    (1 ≤ (runningGrid 5 1).nAct.toNat ∧ 1 ≤ (runningGrid 5 1).mAct.toNat ∧ (runningGrid 5 1).params.height < 5) ∧
    ((runningGrid 4 4).nAct.toNat ≤ (runningGrid 4 4).params.height ∧
      (runningGrid 4 4).mAct.toNat ≤ (runningGrid 4 4).params.width) := by decide

theorem test_witness_EqualSubRegionsGiveZeroTargets :
    1 ≤ (runningDelta 77 77).nAct.toNat ∧ (runningDelta 77 77).nAct.toNat ≤ (runningDelta 77 77).params.height ∧
    1 ≤ (runningDelta 77 77).mAct.toNat ∧ (runningDelta 77 77).mAct.toNat ≤ (runningDelta 77 77).halfW ∧
    ∀ y x, y < (runningDelta 77 77).params.height → x < (runningDelta 77 77).halfW →
      (runningDelta 77 77).pixel (pixelAddr (runningDelta 77 77) y x) =
        (runningDelta 77 77).pixel (pixelAddr (runningDelta 77 77) y
          ((runningDelta 77 77).halfW + (runningDelta 77 77).gap.toNat + x)) := by
  refine ⟨by decide, by decide, by decide, by decide, fun y x hy hx => ?_⟩
  have hh : (runningDelta 77 77).params.height = 1 := rfl
  have hw : (runningDelta 77 77).halfW = 1 := rfl
  obtain rfl : y = 0 := by omega
  obtain rfl : x = 0 := by omega
  rfl

/-- The last pixel of the last block, in ABS and in DELTA geometry. -/
theorem test_witness_SamplerReadsInsideTheFrame :
    (1 < (runningGrid 2 2).nAct.toNat ∧ 1 < (runningGrid 2 2).mAct.toNat ∧ 1 < (runningGrid 2 2).blockH ∧
      1 < (runningGrid 2 2).blockW) ∧
    (0 < (runningDelta 7 7).nAct.toNat ∧ 0 < (runningDelta 7 7).mAct.toNat ∧ 0 < (runningDelta 7 7).blockH ∧
      0 < (runningDelta 7 7).blockWDelta) := by decide +kernel

/-- ABS: with a 3 × 1 grid on the 4 × 4 frame, row 3 lies outside every block (V10, row 3). SINGLE: with a 2 × 2 display
grid, the last pixel lies outside the reference block. DELTA: with GAP = 2, column 1 lies in the gap. -/
theorem test_witness_PixelsOutsideBlocksHaveNoEffect :
    (∀ y x, y < (runningGrid 3 1).nAct.toNat * (runningGrid 3 1).blockH →
      x < (runningGrid 3 1).mAct.toNat * (runningGrid 3 1).blockW →
      (runningGrid 3 1).pixel (pixelAddr (runningGrid 3 1) y x) =
        ({ runningGrid 3 1 with fb := [(15, 103)] } : State).pixel (pixelAddr (runningGrid 3 1) y x)) ∧
    (∀ y x, y < (runningGrid 2 2).blockH → x < (runningGrid 2 2).blockW →
      (runningGrid 2 2).pixel (pixelAddr (runningGrid 2 2) y x) =
        ({ runningGrid 2 2 with fb := [(15, 103)] } : State).pixel (pixelAddr (runningGrid 2 2) y x)) ∧
    (∀ y x, y < ({ runningGrid 1 1 with gap := 2 } : State).nAct.toNat * ({ runningGrid 1 1 with gap := 2 } : State).blockH →
      x < ({ runningGrid 1 1 with gap := 2 } : State).mAct.toNat * ({ runningGrid 1 1 with gap := 2 } : State).blockWDelta ∨
        (({ runningGrid 1 1 with gap := 2 } : State).rightX ≤ x ∧
          x < ({ runningGrid 1 1 with gap := 2 } : State).rightX +
            ({ runningGrid 1 1 with gap := 2 } : State).mAct.toNat * ({ runningGrid 1 1 with gap := 2 } : State).blockWDelta) →
      ({ runningGrid 1 1 with gap := 2 } : State).pixel (pixelAddr { runningGrid 1 1 with gap := 2 } y x) =
        ({ runningGrid 1 1 with gap := 2, fb := [(1, 103)] } : State).pixel
          (pixelAddr { runningGrid 1 1 with gap := 2 } y x)) := by
  refine ⟨fun y x hy hx => ?_, fun y x hy hx => ?_, fun y x hy hx => ?_⟩
  · have hh : (runningGrid 3 1).nAct.toNat * (runningGrid 3 1).blockH = 3 := rfl
    have hw : (runningGrid 3 1).mAct.toNat * (runningGrid 3 1).blockW = 4 := rfl
    have hp : (runningGrid 3 1).params.width = 4 := rfl
    have ha : ¬ 15 = y * 4 + x := by omega
    simp only [State.pixel, Memory.read?, listed, pixelAddr, hp, ha, if_false]
    rfl
  · have hh : (runningGrid 2 2).blockH = 2 := rfl
    have hw : (runningGrid 2 2).blockW = 2 := rfl
    have hp : (runningGrid 2 2).params.width = 4 := rfl
    have ha : ¬ 15 = y * 4 + x := by omega
    simp only [State.pixel, Memory.read?, listed, pixelAddr, hp, ha, if_false]
    rfl
  · have hb : ({ runningGrid 1 1 with gap := 2 } : State).mAct.toNat *
        ({ runningGrid 1 1 with gap := 2 } : State).blockWDelta = 1 := rfl
    have hr : ({ runningGrid 1 1 with gap := 2 } : State).rightX = 3 := rfl
    have hp : (runningGrid 1 1).params.width = 4 := rfl
    have ha : ¬ 1 = y * 4 + x := by omega
    simp only [State.pixel, Memory.read?, listed, pixelAddr, hp, ha, if_false]
    rfl

/-- The last cell of the region. -/
theorem test_witness_CtrlWritesItsCellByTheFiveSteps : running.inRegion (4 : Byte).toNat (4 : Byte).toNat = true := by
  decide +kernel

/-- The first cell after the region, in a row and in a column. -/
theorem test_witness_CtrlOutsideTheRegionChangesNothing :
    running.inRegion (5 : Byte).toNat 0 = false ∧ running.inRegion 0 (5 : Byte).toNat = false ∧
    runningP1.inRegion 0 (1 : Byte).toNat = false := by decide +kernel

theorem test_witness_CtrlKeepsCellsInRange :
    running.CellsInRange ∧ ∃ t, exec (.ctrl 4 4 (.value 65280)) running = .next t :=
  ⟨inRange_running, exec_answers _ _⟩

theorem test_witness_CtrlOfTwoCellsCommutes : ((0, 1) : Byte × Byte) ≠ (1, 0) := by decide

theorem test_witness_DeadBandHoldsCurAndSettledSm :
    running.inRegion (0 : Byte).toNat (0 : Byte).toNat = true ∧ running.CellsInRange ∧
    (∀ i < 256, glutAt running.glut i ≤ 65280) ∧ |767 - running.smQ (0 : Byte).toNat (0 : Byte).toNat| < running.noise.toNat := by
  refine ⟨by decide +kernel, inRange_running, ?_, by decide +kernel⟩
  have h : ∀ i : Fin 256, glutAt running.glut i ≤ 65280 := by decide +kernel
  exact fun i hi => h ⟨i, hi⟩

theorem test_witness_GammaLookupInterpolates :
    (255 : Nat) ≤ 255 ∧ ((254 : Nat) ≤ 254 ∧ (255 : Nat) ≤ 255) ∧ (65280 : Nat) ≤ 65280 ∧
    256 * 254 + 255 + 1 = 256 * 255 ∧ ∀ i : Fin 256, glutAt glutReset i ≤ 65280 := by decide +kernel

theorem test_witness_GammaIsSignPreserving : ((0 : Int) ≤ 0) ∧ (1 : Int) ≠ 0 ∧ (-65280 : Int) ≠ 0 := by decide

theorem test_witness_ControlArithmeticFitsItsWidths :
    running.CellsInRange ∧ rangeLo running.modeAct ≤ 0 ∧ (0 : Int) ≤ 65280 ∧
    (rangeLo Mode.delta ≤ -65280 ∧ (65280 : Int) ≤ 65280) ∧ (254 ≤ 254 ∧ 255 ≤ 255) :=
  ⟨inRange_running, by decide, by decide, by decide, by decide⟩

theorem test_witness_EncAbsRoundsToTheNearestValue :
    ((0 : Int) ≤ 0 ∧ (0 : Int) ≤ 65280) ∧ ((0 : Int) ≤ 65280 ∧ (65280 : Int) ≤ 65280) := by decide

theorem test_witness_EncDeltaRoundsToTheNearestValue :
    ((-65280 : Int) ≤ -65280 ∧ (-65280 : Int) ≤ 65280) ∧ ((-65280 : Int) ≤ 0 ∧ (0 : Int) ≤ 65280) := by decide

/-- The element before and the element after another one, and a neighbour that stays. -/
theorem test_witness_LedcmdRecordsItsRequest : ((1, 3) : Nat × Nat) ≠ ((1 : Byte).toNat, (2 : Byte).toNat) := by decide

theorem test_witness_SkippedTickOnlyRaisesNoframe :
    running.st = .running ∧ running.closeReq = false ∧ running.busy = false ∧
    ({ running with frameValid := false } : State).frameValid = false := by decide

theorem test_witness_TickIsIgnoredOrOverruns :
    State.reset.st ≠ .running ∧ closing.closeReq = true ∧
    (running.st = .running ∧ running.closeReq = false ∧ ({ running with busy := true } : State).busy = true) := by decide

theorem test_witness_FullTickIsItsMicroOperations : TickRuns running ∧ TickRuns runningP1 :=
  ⟨⟨rfl, rfl, rfl, rfl⟩, ⟨rfl, rfl, rfl, rfl⟩⟩

theorem test_witness_FullTickChangesOnlyItsOutputs : TickRuns running ∧ TickRuns (runningDelta 7 7) :=
  ⟨⟨rfl, rfl, rfl, rfl⟩, ⟨rfl, rfl, rfl, rfl⟩⟩

theorem test_witness_FullTickEmitsOneLinePerCell :
    (Safe running ∧ TickRuns running) ∧ (Safe (runningDelta 7 7) ∧ TickRuns (runningDelta 7 7)) :=
  ⟨⟨safe_running, ⟨rfl, rfl, rfl, rfl⟩⟩, safe_of_blank rfl (by decide +kernel), ⟨rfl, rfl, rfl, rfl⟩⟩

/-- The 5 × 5 grid on the 4 × 4 frame, the same with an invalid and with a changed request, and a DELTA frame too narrow
for its gap. -/
theorem test_witness_DegenerateTickHoldsEveryCell :
    (Safe running ∧ TickRuns running ∧ exec .latchcfg running = .next running ∧ BlocksDegenerate running ∧
      GridUnchanged running) ∧
    (Safe { running with gridN := 9 } ∧ TickRuns { running with gridN := 9 } ∧
      BlocksDegenerate (latchConfig { running with gridN := 9 }) ∧
      ({ running with gridN := 9 } : State).gridValid = false) ∧
    (Safe { running with gridN := 6 } ∧ TickRuns { running with gridN := 6 } ∧
      BlocksDegenerate (latchConfig { running with gridN := 6 }) ∧ (latchConfig { running with gridN := 6 }).nAct = 6) ∧
    (Safe { runningDelta 7 7 with gap := 3 } ∧ TickRuns { runningDelta 7 7 with gap := 3 } ∧
      BlocksDegenerate (latchConfig { runningDelta 7 7 with gap := 3 })) :=
  ⟨⟨safe_running, ⟨rfl, rfl, rfl, rfl⟩, rfl, .inl (by decide), ⟨by decide +kernel, rfl, rfl⟩⟩,
    ⟨safe_of_blank rfl (by decide +kernel), ⟨rfl, rfl, rfl, rfl⟩, .inl (by decide +kernel), by decide +kernel⟩,
    ⟨safe_of_blank rfl (by decide +kernel), ⟨rfl, rfl, rfl, rfl⟩, .inl (by decide +kernel), by decide +kernel⟩,
    safe_of_blank rfl (by decide +kernel), ⟨rfl, rfl, rfl, rfl⟩, .inr (.inr ⟨rfl, by decide +kernel⟩)⟩

/-- With `test_witness_EqualSubRegionsGiveZeroTargets` for the pixels. -/
theorem test_witness_DeltaSymmetryKeepsTheMidpoint :
    Safe (runningDelta 77 77) ∧ TickRuns (runningDelta 77 77) ∧ GridUnchanged (runningDelta 77 77) ∧
    (runningDelta 77 77).modeAct = .delta ∧ glutAt (runningDelta 77 77).glut 0 = 0 ∧
    (runningDelta 77 77).nAct.toNat ≤ (runningDelta 77 77).params.height ∧
    (runningDelta 77 77).mAct.toNat ≤ (runningDelta 77 77).halfW ∧
    (∀ r c, (runningDelta 77 77).curQ r c = 0 ∧ (runningDelta 77 77).smQ r c = 0) ∧
    ∀ y x, y < (runningDelta 77 77).params.height → x < (runningDelta 77 77).halfW →
      (runningDelta 77 77).pixel (pixelAddr (runningDelta 77 77) y x) =
        (runningDelta 77 77).pixel (pixelAddr (runningDelta 77 77) y
          ((runningDelta 77 77).halfW + (runningDelta 77 77).gap.toNat + x)) :=
  ⟨safe_of_blank rfl (by decide +kernel), ⟨rfl, rfl, rfl, rfl⟩, ⟨by decide +kernel, rfl, rfl⟩, rfl, by decide +kernel,
    by decide, by decide,
    fun _ _ => ⟨rfl, rfl⟩, test_witness_EqualSubRegionsGiveZeroTargets.2.2.2.2⟩

/-- Outside IDLE and in IDLE. -/
theorem test_witness_NoTickRunsAfterClose :
    (closing.closeReq = true ∧ closing.st ≠ .idle ∧ Instr.tick.isEvent = true ∧ Instr.tick ≠ .reset ∧
      Instr.tick ≠ .tauStop ∧ exec .tick closing = .next closing) ∧
    (idleClosing.closeReq = true ∧ Instr.start.isEvent = true ∧ Instr.start ≠ .reset ∧
      exec .start idleClosing = .next (startBlock idleClosing)) :=
  ⟨⟨rfl, by decide, rfl, by decide, by decide, rfl⟩, rfl, rfl, by decide, rfl⟩

theorem test_witness_TauCloseEntersShutting :
    closing.st = .running ∧ closing.closeReq = true ∧ closing.busy = false := by decide

theorem test_witness_TauStopReleasesAndStops : ({ closing with st := .shutting } : State).st = .shutting := rfl

theorem test_witness_DisabledTransitionsDoNotFire :
    ¬(running.st = .running ∧ running.closeReq = true ∧ running.busy = false) ∧ running.st ≠ .shutting := by decide

/-- The numbers at the ends of the map and of the gaps in it, and the cells at the ends of the arrays. -/
theorem test_witness_RdregReturnsTheMappedWord :
    ((0x100 : Word).toNat = 0x100 + 0 ∧ (0x1FF : Word).toNat = 0x100 + 255) ∧
    (0x010 < (0x011 : Word).toNat ∧ (0x0FF : Word).toNat < 0x100 ∧ 0x1FF < (0x200 : Word).toNat) ∧
    (0 = State.reset.cellSel.toNat / 256 ∧ 0 = State.reset.cellSel.toNat % 256) := by decide

theorem test_witness_WrregWritesTheMappedRegister :
    ((0 : Word) ≠ 1 ∧ (0 : Word) ≠ 2 ∧ (0 : Word) ≠ 3) ∧ ((4 : Word) ≠ 1 ∧ (4 : Word) ≠ 2 ∧ (4 : Word) ≠ 3) ∧
    (State.reset.st = .idle ∧ (2 : Word).toNat = codeOfMode .single) ∧ (running.st ≠ .idle ∧ 2 < (3 : Word).toNat) ∧
    ((0x100 : Word).toNat = 0x100 + 0 ∧ (0x1FF : Word).toNat = 0x100 + 255) ∧
    (0x010 < (0x011 : Word).toNat ∧ (0x0FF : Word).toNat < 0x100 ∧ 0x1FF < (0x200 : Word).toNat) := by decide

/-- Each register of the statement, with the highest word, and MODE with its highest code. -/
theorem test_witness_WrittenRegistersReadBack :
    (∀ n ∈ ([0x004, 0x006, 0x00A, 0x00E, 0x100, 0x1FF] : List Word),
      ∃ t u, exec (.wrreg n 0xFFFFFFFF) State.reset = .next t ∧ exec (.rdreg n) t = .next u) ∧
    (∃ t u, exec (.wrreg 0x003 2) State.reset = .next t ∧ exec (.rdreg 0x003) t = .next u) ∧
    (2 : Word).toNat ≤ 2 ∧ State.reset.st = .idle :=
  ⟨fun _ _ => ⟨_, _, rfl, rfl⟩, ⟨_, _, rfl, rfl⟩, by decide, rfl⟩

/-- The last address of the frame space and the first one after it. -/
theorem test_witness_WrfbStoresItsByte :
    (15 : Word).toNat < State.reset.params.height * State.reset.params.width ∧
    State.reset.params.height * State.reset.params.width ≤ (16 : Word).toNat ∧ 14 ≠ (15 : Word).toNat := by decide

theorem test_witness_StepKeepsSafeStates : Safe running ∧ step running = .next running := ⟨safe_running, rfl⟩

/-- A record that encodes an operation at the head, a reserved command word there, and no record at all. -/
theorem test_witness_EventsNeverStopTheBlock :
    (∀ rec rest, closing.pending = rec :: rest →
      (∃ i, decode rec.bytes = .ok i) ∨ ∃ v, decode rec.bytes = .error (.reservedCommand v)) ∧
    (∀ rec rest, idleClosing.pending = rec :: rest →
      (∃ i, decode rec.bytes = .ok i) ∨ ∃ v, decode rec.bytes = .error (.reservedCommand v)) ∧
    (∀ rec rest, State.reset.pending = rec :: rest →
      (∃ i, decode rec.bytes = .ok i) ∨ ∃ v, decode rec.bytes = .error (.reservedCommand v)) :=
  ⟨fun rec rest h => by cases h; exact .inl ⟨.tick, by decide⟩,
    fun rec rest h => by cases h; exact .inr ⟨4, by decide⟩, fun _ _ h => by cases h⟩

/-- A step that emits: P1, step 7. -/
theorem test_witness_TxOnlyGrows : ∃ t, step (runningP1.withFetchWord 32 2) = .next t :=
  ⟨_, rfl⟩

theorem test_witness_ErrorFlagsAreSticky :
    Instr.close ≠ .reset ∧ exec .close stopped = .next { stopped with closeReq := true } ∧
    stopped.hasErr .noTransport = true := ⟨by decide, rfl, by decide⟩

/-- One transition of each row. -/
theorem test_witness_SchedulerFollowsItsTransitionTable :
    (exec .reset stopped = .next (resetBlock stopped) ∧ stopped.st ≠ (resetBlock stopped).st) ∧
    (exec .start State.reset = .next (startBlock State.reset) ∧ State.reset.st ≠ (startBlock State.reset).st) ∧
    (exec (.wrreg 0 1) (atPins { pinsReady with transportReady := false }) =
        .next (startBlock (atPins { pinsReady with transportReady := false })) ∧
      SchedState.idle ≠ (startBlock (atPins { pinsReady with transportReady := false })).st) ∧
    (exec .tauClose closing = .next (fireClose closing) ∧ closing.st ≠ (fireClose closing).st) ∧
    (exec .tauStop { closing with st := .shutting } = .next (fireStop { closing with st := .shutting }) ∧
      SchedState.shutting ≠ (fireStop { closing with st := .shutting }).st) :=
  ⟨⟨rfl, by decide⟩, ⟨rfl, by decide +kernel⟩, ⟨rfl, by decide +kernel⟩, ⟨rfl, by decide +kernel⟩, rfl, by decide +kernel⟩

theorem test_witness_StoppedIsFinal :
    stopped.st = .stopped ∧ Instr.start.isEvent = true ∧ Instr.start ≠ .reset ∧
    exec .start stopped = .next (startBlock stopped) := ⟨rfl, rfl, by decide, rfl⟩

theorem test_witness_ConfigurationIsWrittenByTheHostOnly :
    Instr.tick ≠ .reset ∧ exec .tick running = .next (tickBlock running) ∧
    (∀ n v, Instr.tick ≠ .wrreg n v) ∧ running.st ≠ .idle := ⟨by decide, rfl, fun _ _ => nofun, by decide⟩

theorem test_witness_OperationsKeepInstanceAndInputs :
    exec .tick running = .next (tickBlock running) ∧ Instr.tick ≠ .reset ∧ ∀ a b, Instr.tick ≠ .wrfb a b :=
  ⟨rfl, by decide, fun _ _ => nofun⟩

end Sys2Proof.Tests
end

section
/-! SUPPORT. O8: what `step` does with a pending operation. -/

namespace Sys2Proof.Machine

/-- The head record's operation is fetched in the state with the record taken (R45, R70). -/
theorem fetch_of_pending {s : State} {rec : Record} {rest : List Record} {i : Instr}
    (hp : s.pending = rec :: rest) (hd : decode rec.bytes = .ok i) : fetch s = .run i (takeRecord rec rest s) := by
  simp only [fetch, hp, hd]

theorem step_of_fetch_run {s s' : State} {i : Instr} (h : fetch s = .run i s') : step s = exec i s' := by
  rw [step, h]

/-- Settles O8. -/
theorem stepRunsTheNextEvent : Obligations.StepRunsTheNextEvent :=
  fun _ _ _ _ hp hd => step_of_fetch_run (fetch_of_pending hp hd)

end Sys2Proof.Machine
end

section
/-! SUPPORT. O60: what no operation changes, neither the parameters and the inputs nor, but for WRFB and RESET, the
frame buffer. -/

namespace Sys2Proof.Machine

/-- `t` has the parameters, the pin levels and the events to come of `s` (R7, R45; log 2). -/
def SameInputs (s t : State) : Prop := t.params = s.params ∧ t.pins = s.pins ∧ t.pending = s.pending

/-- `t` has the frame buffer of `s`: the written bytes, and the draw behind the unwritten ones (R50; log 8). -/
def SameFrame (s t : State) : Prop := t.fb = s.fb ∧ t.fbFill = s.fbFill

/-- The two fields of the frame buffer decide every pixel. -/
theorem SameFrame.pixel_eq {s t : State} (h : SameFrame s t) (a : Nat) : t.pixel a = s.pixel a := by
  obtain ⟨hfb, hfill⟩ := h
  rw [State.pixel, State.pixel, hfb, hfill]

theorem startBlock_keeps (s : State) : SameInputs s (startBlock s) ∧ SameFrame s (startBlock s) := by
  obtain ⟨-, h⟩ | ⟨-, -, h⟩ | ⟨-, -, -, h⟩ | ⟨-, -, -, h⟩ := startBlock_cases s <;>
    simp [h, SameInputs, SameFrame]

theorem fullTick_keeps (s : State) : SameInputs s (fullTick s) ∧ SameFrame s (fullTick s) := by
  rw [fullTick_frame]
  exact ⟨⟨rfl, rfl, rfl⟩, rfl, rfl⟩

theorem tickBlock_keeps (s : State) : SameInputs s (tickBlock s) ∧ SameFrame s (tickBlock s) := by
  obtain ⟨-, h⟩ | ⟨-, -, -, h⟩ | ⟨-, -, -, -, h⟩ | ⟨-, -, -, -, h⟩ := tickBlock_cases s
  · simp [h, SameInputs, SameFrame]
  · simp [h, SameInputs, SameFrame]
  · simp [h, SameInputs, SameFrame]
  · rw [h]
    exact fullTick_keeps s

theorem command_keeps (v : Word) (s : State) : SameInputs s (command v s) ∧ SameFrame s (command v s) := by
  obtain ⟨-, h⟩ | ⟨-, h⟩ | ⟨-, h⟩ | ⟨-, h⟩ := command_cases v s <;> rw [h]
  · exact startBlock_keeps s
  · exact tickBlock_keeps s
  · exact ⟨⟨rfl, rfl, rfl⟩, rfl, rfl⟩
  · exact ⟨⟨rfl, rfl, rfl⟩, rfl, rfl⟩

theorem WriteEffect.keeps {v : Word} {s t : State} (h : WriteEffect v s t) : SameInputs s t ∧ SameFrame s t := by
  cases h with
  | command => exact command_keeps v s
  | _ => exact ⟨⟨rfl, rfl, rfl⟩, rfl, rfl⟩

theorem writePixel_sameInputs (a : Nat) (b : Byte) (s : State) : SameInputs s (writePixel a b s) := by
  obtain ⟨-, h⟩ | ⟨-, h⟩ := writePixel_cases a b s <;> rw [h] <;> exact ⟨rfl, rfl, rfl⟩

/-- No operation changes the inputs, and none but WRFB and RESET the frame buffer (R7, R45, R160, R215). -/
theorem exec_keeps {i : Instr} {s t : State} (h : exec i s = .next t) :
    SameInputs s t ∧ (i ≠ .reset → (∀ a b, i ≠ .wrfb a b) → SameFrame s t) := by
  cases i with
  | reset =>
    cases h
    exact ⟨⟨rfl, rfl, rfl⟩, fun hne => absurd rfl hne⟩
  | wrfb a b =>
    cases h
    exact ⟨writePixel_sameInputs a.toNat b s, fun _ hne => absurd rfl (hne a b)⟩
  | start =>
    cases h
    exact (startBlock_keeps s).imp_right fun hf _ _ => hf
  | tick =>
    cases h
    exact (tickBlock_keeps s).imp_right fun hf _ _ => hf
  | wrreg n v =>
    cases h
    exact (writeReg_cases (regOf n) v s).keeps.imp_right fun hf _ _ => hf
  | ctrl r c tgt =>
    simp only [exec, execCtrl] at h
    split at h <;> cases h <;> exact ⟨⟨rfl, rfl, rfl⟩, fun _ _ => ⟨rfl, rfl⟩⟩
  | _ =>
    cases h
    simp [SameInputs, SameFrame]

/-- Settles O60, by the operations one by one. -/
theorem operationsKeepInstanceAndInputs : Obligations.OperationsKeepInstanceAndInputs := by
  intro s t i h
  obtain ⟨⟨hparams, hpins, hpending⟩, hframe⟩ := exec_keeps h
  exact ⟨hparams, hpins, hpending, fun hr hw => ⟨(hframe hr hw).1, (hframe hr hw).pixel_eq⟩⟩

end Sys2Proof.Machine
end

section
/-! SUPPORT. O53: every step keeps a good state good. First the fields that `Safe` does not read, then
each phase of START and TICK in turn, then the events. -/

namespace Sys2Proof.Machine

/-! ### Fields that no rule of a good state reads -/

/-- `t` differs from `s` in fields that `Safe` does not read, and in flags other than OVERRUN. -/
def SameRuled (s t : State) : Prop :=
  t = { s with
    frameValid := t.frameValid, err := t.err, mode := t.mode, gridN := t.gridN, gridM := t.gridM, kp := t.kp
    smooth := t.smooth, noise := t.noise, gap := t.gap, cellSel := t.cellSel, glut := t.glut, tx := t.tx
    pins := t.pins, rdData := t.rdData, targets := t.targets, encValue := t.encValue, asked := t.asked
    freeCount := t.freeCount, fbFill := t.fbFill } ∧
  t.hasErr .overrun = s.hasErr .overrun

theorem Safe.of_sameRuled {s t : State} (hs : Safe s) (h : SameRuled s t) : Safe t := by
  obtain ⟨ht, herr⟩ := h
  have hno : t.hasErr .overrun = false := herr.trans hs.noOverrun
  rw [ht]
  exact { hs with noOverrun := hno }

/-- Every flag but OVERRUN may be raised in a good state (R199). -/
theorem Safe.raise {s : State} (hs : Safe s) {f : ErrFlag} (hf : f ≠ .overrun) : Safe (raise f s) :=
  hs.of_sameRuled ⟨rfl, by simp [hasErr_raise, hf.symm]⟩

theorem Safe.raiseDegen {s : State} (hs : Safe s) (m : Mode) : Safe (raiseDegen m s) := by
  unfold Machine.raiseDegen
  split
  · exact hs.raise nofun
  · exact hs

theorem Safe.emitBytes {s : State} (hs : Safe s) (bs : List Byte) : Safe (emitBytes bs s) :=
  hs.of_sameRuled ⟨rfl, by simp [hasErr_emitBytes]⟩

/-- Taking a record leaves events to come (R155). -/
theorem Safe.takeRecord {s : State} (hs : Safe s) {rec : Record} {rest : List Record}
    (hp : s.pending = rec :: rest) : Safe (takeRecord rec rest s) :=
  { hs with events := fun e he => hs.events e (hp ▸ List.mem_cons_of_mem rec he) }

/-! ### LATCHCFG (R165) -/

theorem zero_mem_range (m : Mode) : rangeLo m ≤ 0 ∧ (0 : Int) ≤ qOne := by
  rcases rangeLo_cases m with h | h <;> simp [h]

/-- Cells that all hold 0 are in every range (R22). -/
theorem cellsInRange_of_zero {s : State} (h : ∀ r c, s.curQ r c = 0 ∧ s.smQ r c = 0) : s.CellsInRange := by
  intro r c
  obtain ⟨hlo, hhi⟩ := zero_mem_range s.modeAct
  rw [(h r c).1, (h r c).2]
  exact ⟨hlo, hhi, hlo, hhi⟩

/-- A valid request fits the 8 bits of the active grid (R7, R39), and LATCHCFG makes it active. -/
theorem toNat_latchConfig {s : State} (hp : s.params.wf = true) (hv : s.gridValid = true) :
    (latchConfig s).nAct.toNat = s.gridN.toNat ∧ (latchConfig s).mAct.toNat = s.gridM.toNat := by
  obtain ⟨hv', -⟩ | ⟨-, hn, hm, h⟩ | ⟨-, -, h⟩ := latchConfig_cases s
  · simp [hv] at hv'
  · rw [h]
    exact ⟨hn.symm, hm.symm⟩
  · simp only [Params.wf, State.gridValid, decide_eq_true_eq] at hp hv
    rw [h]
    simp only [BitVec.toNat_setWidth]
    omega

/-- LATCHCFG zeroes a cell or keeps it. -/
theorem latchConfig_cell_zero_or_kept (s : State) (r c : Nat) :
    ((latchConfig s).curQ r c = 0 ∧ (latchConfig s).smQ r c = 0) ∨
    ((latchConfig s).curQ r c = s.curQ r c ∧ (latchConfig s).smQ r c = s.smQ r c) := by
  obtain ⟨hcur, hsm⟩ := latchConfig_cell s r c
  simp only [State.curQ, State.smQ, hcur, hsm]
  split
  · exact .inl ⟨rfl, rfl⟩
  · exact .inr ⟨rfl, rfl⟩

/-- A cell that holds 0 holds 0 after LATCHCFG. -/
theorem latchConfig_cell_of_zero {s : State} {r c : Nat} (h : s.curQ r c = 0 ∧ s.smQ r c = 0) :
    (latchConfig s).curQ r c = 0 ∧ (latchConfig s).smQ r c = 0 := by
  obtain h0 | ⟨hcur, hsm⟩ := latchConfig_cell_zero_or_kept s r c
  · exact h0
  · rwa [hcur, hsm]

/-- LATCHCFG keeps the range invariant, because 0 lies in every range (R22). -/
theorem State.CellsInRange.latchConfig {s : State} (h : s.CellsInRange) : (latchConfig s).CellsInRange := by
  intro r c
  rw [latchConfig_modeAct]
  obtain ⟨hcur, hsm⟩ | ⟨hcur, hsm⟩ := latchConfig_cell_zero_or_kept s r c <;> rw [hcur, hsm]
  · obtain ⟨hlo, hhi⟩ := zero_mem_range s.modeAct
    exact ⟨hlo, hhi, hlo, hhi⟩
  · exact h r c

/-- A cell outside the new region was outside the old one, or is zeroed for lying outside the overlap (R23, R165). -/
theorem State.ZeroOutsideRegion.latchConfig {s : State} (hs : Safe s) (hv : s.gridValid = true)
    (h : s.ZeroOutsideRegion) : (latchConfig s).ZeroOutsideRegion := by
  intro r c hout
  by_cases hm : s.modeAct = .single
  · have hreg : s.inRegion r c = false := by
      simpa [State.inRegion, State.nc, State.mc, hm] using hout
    exact latchConfig_cell_of_zero (h r c hreg)
  · obtain ⟨hnc, hmc⟩ := State.nc_grid hm
    obtain ⟨hnc', hmc'⟩ := State.nc_grid (s := Machine.latchConfig s) (by rwa [latchConfig_modeAct])
    obtain ⟨hn, hm'⟩ := toNat_latchConfig hs.params hv
    have hrows := hs.rows
    have hcolumns := hs.columns
    obtain ⟨hcur, hsm⟩ := latchConfig_cell s r c
    simp only [State.inRegion, hnc', hmc', hn, hm', decide_eq_false_iff_not] at hout
    simp only [State.curQ, State.smQ, hcur, hsm]
    split
    · exact ⟨rfl, rfl⟩
    · rename_i hkept
      refine h r c ?_
      simp only [State.inRegion, hnc, hmc, decide_eq_false_iff_not]
      rintro ⟨hr, hc⟩
      refine hkept ⟨hv, by omega, hm, by omega, ?_⟩
      simp only [State.outsideOverlap, Bool.not_eq_true', decide_eq_false_iff_not]
      omega

theorem Safe.latchConfig {s : State} (hs : Safe s) : Safe (latchConfig s) := by
  cases hv : s.gridValid with
  | false =>
    rw [Machine.latchConfig, if_neg (by simp [hv])]
    exact hs.raise nofun
  | true =>
    obtain ⟨hn, hm⟩ := toNat_latchConfig hs.params hv
    have hgrid := hv
    simp only [State.gridValid, decide_eq_true_eq] at hgrid
    exact {
      params := by simpa using hs.params
      frameBuffer := by simpa using hs.frameBuffer
      frameSpace := by simpa [State.frameSize] using hs.frameSpace
      cells := wf_latchConfig s hs.cells
      rows := by rw [hn, latchConfig_params]; omega
      columns := by rw [hm, latchConfig_params]; omega
      notBusy := by simpa using hs.notBusy
      noOverrun := by simpa [hasErr_latchConfig] using hs.noOverrun
      held := by simpa using hs.held
      closing := by simpa using hs.closing
      idle := fun hidle => by
        obtain ⟨habs, hzero⟩ := hs.idle (by simpa using hidle)
        exact ⟨by simpa using habs, fun r c => latchConfig_cell_of_zero (hzero r c)⟩
      specified := by simpa using hs.specified
      range := fun hf => (hs.range (by simpa using hf)).latchConfig
      canonicalZero := fun hf => (hs.canonicalZero (by simpa using hf)).latchConfig hs hv
      events := by simpa using hs.events }

/-- LATCHCFG neither reads nor writes ST (R165). -/
theorem latchConfig_setSt (s : State) (x : SchedState) :
    latchConfig { s with st := x } = { latchConfig s with st := x } := by
  unfold latchConfig State.gridValid State.outsideOverlap
  split_ifs <;> rfl

/-- LATCHCFG neither reads nor writes BUSY (R165). -/
theorem latchConfig_setBusy (s : State) (b : Bool) :
    latchConfig { s with busy := b } = { latchConfig s with busy := b } := by
  unfold latchConfig State.gridValid State.outsideOverlap
  split_ifs <;> rfl

/-- The sampling phase neither reads nor writes BUSY (R103). -/
theorem raiseDegen_setBusy (m : Mode) (s : State) (b : Bool) :
    raiseDegen m { s with busy := b } = { raiseDegen m s with busy := b } := by
  have hd : degenerate m { s with busy := b } = degenerate m s := rfl
  unfold raiseDegen
  rw [hd]
  split <;> rfl

/-! ### The control phase (R129) -/

/-- The values CTRL leaves in a cell lie in the range, if those before it did (R131). -/
theorem ctrlCell_range (s : State) (r c : Nat) (t : Target) (h : s.CellsInRange) :
    let cs := ctrlCell s r c t s.cells
    (rangeLo s.modeAct ≤ (cs.curAt r c).toInt ∧ (cs.curAt r c).toInt ≤ qOne) ∧
    (rangeLo s.modeAct ≤ (cs.smAt r c).toInt ∧ (cs.smAt r c).toInt ≤ qOne) := by
  cases t with
  | skip =>
    obtain ⟨h₁, h₂, h₃, h₄⟩ := h r c
    exact ⟨⟨h₁, h₂⟩, h₃, h₄⟩
  | value q =>
    obtain ⟨hcur, hsm⟩ := ctrlCell_value s r c q s.cells
    simp only [hcur, hsm]
    exact ctrlUpdate_mem s q _ _

theorem State.CellsInRange.controlPhase {s : State} (h : s.CellsInRange) (tgt : Nat → Nat → Target) :
    (controlPhase s tgt).CellsInRange := by
  intro r c
  obtain ⟨hcur, hsm⟩ := controlPhase_spec s tgt r c
  rw [State.curQ, State.smQ, hcur, hsm, controlPhase_modeAct]
  split
  · obtain ⟨⟨h₁, h₂⟩, h₃, h₄⟩ := ctrlCell_range s r c (tgt r c) h
    exact ⟨h₁, h₂, h₃, h₄⟩
  · exact h r c

/-- The control phase writes no cell outside the region (R23). -/
theorem State.ZeroOutsideRegion.controlPhase {s : State} (h : s.ZeroOutsideRegion) (tgt : Nat → Nat → Target) :
    (controlPhase s tgt).ZeroOutsideRegion := by
  intro r c hout
  have hreg : s.inRegion r c = false := hout
  obtain ⟨hcur, hsm⟩ := controlPhase_spec s tgt r c
  rw [State.curQ, State.smQ, hcur, hsm, if_neg (by simp [hreg])]
  exact h r c hreg

theorem Safe.controlPhase {s : State} (hs : Safe s) (hst : s.st ≠ .idle) (tgt : Nat → Nat → Target) :
    Safe (controlPhase s tgt) :=
  { hs with
    cells := wf_controlPhase s tgt hs.cells
    idle := fun h => absurd h hst
    specified := fun h => (fill_controlPhase s tgt).trans (hs.specified h)
    range := fun h => (hs.range ((fill_controlPhase s tgt).symm.trans h)).controlPhase tgt
    canonicalZero := fun h => (hs.canonicalZero ((fill_controlPhase s tgt).symm.trans h)).controlPhase tgt }

/-! ### Commands and internal transitions -/

/-- In IDLE every cell is 0, so a run may begin in any mode (R161). -/
theorem Safe.enterRunning {s : State} (hs : Safe s) (hidle : s.st = .idle) :
    Safe { s with modeAct := s.mode, srcHeld := true, txHeld := true, st := .running } := by
  obtain ⟨-, hzero⟩ := hs.idle hidle
  exact { hs with
    held := ⟨rfl, rfl⟩
    closing := nofun
    idle := nofun
    specified := fun _ => hs.specified (by simp [hidle])
    range := fun _ => cellsInRange_of_zero hzero
    canonicalZero := fun _ r c _ => hzero r c }

theorem Safe.startBlock {s : State} (hs : Safe s) : Safe (startBlock s) := by
  obtain ⟨-, h⟩ | ⟨hidle, -, h⟩ | ⟨-, -, -, h⟩ | ⟨hidle, -, -, h⟩ := startBlock_cases s <;> rw [h]
  · exact hs.raise nofun
  · have hr := hs.raise (f := .noTransport) nofun
    have hheld := hs.held
    exact { hr with
      held := by simpa [hidle] using hheld
      closing := nofun
      idle := nofun
      specified := fun hne => absurd rfl hne }
  · exact hs
  · have hrun := (hs.enterRunning hidle).latchConfig
    rwa [latchConfig_setSt { s with modeAct := s.mode, srcHeld := true, txHeld := true }] at hrun

/-- A full tick is its phases, run as if BUSY stayed 0: none of them reads it (R28, R166). -/
theorem fullTick_phases (s : State) :
    ∃ tgt bs, fullTick s =
      { emitBytes bs (controlPhase (raiseDegen s.modeAct (latchConfig s)) tgt) with
        frameValid := false, busy := false } := by
  have hsampled : sampled s = { raiseDegen s.modeAct (latchConfig s) with busy := true } := by
    rw [sampled, latchConfig_setBusy, raiseDegen_setBusy]
  refine ⟨targetOf s.modeAct (sampled s),
    tickLines (controlPhase (sampled s) (targetOf s.modeAct (sampled s))), ?_⟩
  rw [fullTick_eq, emitPhase_eq, hsampled]
  rfl

theorem Safe.fullTick {s : State} (hs : Safe s) (hst : s.st ≠ .idle) : Safe (fullTick s) := by
  obtain ⟨tgt, bs, h⟩ := fullTick_phases s
  have hcontrol := (hs.latchConfig.raiseDegen s.modeAct).controlPhase (by simpa using hst) tgt
  rw [h]
  exact { hcontrol.emitBytes bs with notBusy := rfl }

theorem Safe.tickBlock {s : State} (hs : Safe s) : Safe (tickBlock s) := by
  obtain ⟨-, h⟩ | ⟨-, -, hbusy, -⟩ | ⟨-, -, -, -, h⟩ | ⟨hrun, -, -, -, h⟩ := tickBlock_cases s
  · rwa [h]
  · simp [hs.notBusy] at hbusy
  · rw [h]
    exact hs.raise nofun
  · rw [h]
    exact hs.fullTick (by simp [hrun])

theorem Safe.requestClose {s : State} (hs : Safe s) : Safe (requestClose s) :=
  { hs with closing := fun _ => rfl }

theorem Safe.fireClose {s : State} (hs : Safe s) : Safe (fireClose s) := by
  unfold Machine.fireClose
  split
  · rename_i h
    simp only [State.closeEnabled, Bool.and_eq_true, decide_eq_true_eq] at h
    obtain ⟨⟨hrun, hclose⟩, -⟩ := h
    have hheld := hs.held
    exact { hs with
      held := by simpa [hrun] using hheld
      closing := fun _ => hclose
      idle := nofun
      specified := fun _ => hs.specified (by simp [hrun]) }
  · exact hs

/-- TAU.STOP gives the cells free values, about which STOPPED claims nothing (R25, R168). -/
theorem Safe.fireStop {s : State} (hs : Safe s) : Safe (fireStop s) := by
  unfold Machine.fireStop
  split
  · exact { hs with
      cells := rfl
      held := ⟨rfl, rfl⟩
      closing := nofun
      idle := nofun
      specified := fun hne => absurd rfl hne
      range := nofun
      canonicalZero := nofun }
  · exact hs

/-- Whatever parameters meet R7, the block is good at power-on (R56). -/
theorem safe_resetOf {p : Params} (hp : p.wf = true) : Safe (State.resetOf p) := by
  have hsizes := hp
  simp only [Params.wf, decide_eq_true_eq] at hsizes
  have hzero : ∀ r c, (State.resetOf p).curQ r c = 0 ∧ (State.resetOf p).smQ r c = 0 := fun _ _ => ⟨rfl, rfl⟩
  exact {
    params := hp
    frameBuffer := rfl
    frameSpace := fun _ h => absurd rfl h
    cells := rfl
    rows := show 1 ≤ 5 ∧ 5 ≤ p.nmax by omega
    columns := show 1 ≤ 5 ∧ 5 ≤ p.mmax by omega
    notBusy := rfl
    noOverrun := show (0 : Byte).getLsbD 7 = false by decide
    held := ⟨rfl, rfl⟩
    closing := nofun
    idle := fun _ => ⟨rfl, hzero⟩
    specified := fun _ => rfl
    range := fun _ => cellsInRange_of_zero hzero
    canonicalZero := fun _ r c _ => hzero r c
    events := nofun }

/-- RESET is power-on again, with the events to come kept (R215, log 14). -/
theorem Safe.resetBlock {s : State} (hs : Safe s) : Safe (resetBlock s) :=
  { safe_resetOf hs.params with events := hs.events }

/-! ### Bus accesses -/

theorem Safe.command {s : State} (hs : Safe s) (v : Word) : Safe (command v s) := by
  obtain ⟨-, h⟩ | ⟨-, h⟩ | ⟨-, h⟩ | ⟨-, h⟩ := command_cases v s <;> rw [h]
  · exact hs.startBlock
  · exact hs.tickBlock
  · exact hs.requestClose
  · exact hs.raise nofun

theorem Safe.of_writeEffect {v : Word} {s t : State} (hs : Safe s) (h : WriteEffect v s t) : Safe t := by
  cases h with
  | command => exact hs.command v
  | refused => exact hs.raise nofun
  | _ => exact hs.of_sameRuled ⟨rfl, rfl⟩

theorem Safe.writePixel {s : State} (hs : Safe s) (a : Nat) (b : Byte) : Safe (writePixel a b s) := by
  obtain ⟨ha, h⟩ | ⟨-, h⟩ := writePixel_cases a b s <;> rw [h]
  · exact { hs with
      frameBuffer := Memory.wf_write hs.frameBuffer a b
      frameSpace := fun a' ha' => by
        by_cases he : a' = a
        · exact he ▸ ha
        · exact hs.frameSpace a' (by rwa [← Memory.read?_write_other s.fb he b]) }
  · exact hs.raise nofun

/-! ### Events and steps -/

/-- Every event keeps a good state good. -/
theorem Safe.exec {s t : State} {i : Instr} (hs : Safe s) (hi : i.isEvent = true) (h : exec i s = .next t) :
    Safe t := by
  cases i with
  | start => cases h; exact hs.startBlock
  | tick => cases h; exact hs.tickBlock
  | close => cases h; exact hs.requestClose
  | rdreg n => cases h; exact hs.of_sameRuled ⟨rfl, rfl⟩
  | wrreg n v => cases h; exact hs.of_writeEffect (writeReg_cases (regOf n) v s)
  | wrfb a b => cases h; exact hs.writePixel a.toNat b
  | reset => cases h; exact hs.resetBlock
  | tauClose => cases h; exact hs.fireClose
  | tauStop => cases h; exact hs.fireStop
  | _ => cases hi

theorem isEvent_of_enabledTau {s : State} {i : Instr} (h : enabledTau s = some i) : i.isEvent = true := by
  obtain ⟨-, he⟩ | ⟨-, -, he⟩ | ⟨-, -, he⟩ := enabledTau_cases s
  · cases he.symm.trans h
    rfl
  · cases he.symm.trans h
    rfl
  · cases he.symm.trans h

/-- In a good state the head record's operation is an event (R155). -/
theorem Safe.isEvent_of_pending {s : State} (hs : Safe s) {rec : Record} {rest : List Record} {i : Instr}
    (hp : s.pending = rec :: rest) (hd : decode rec.bytes = .ok i) : i.isEvent = true := by
  have he := hs.events rec (by simp [hp])
  rwa [Record.isEvent, hd] at he

/-- Settles O53, by what a step can have done. -/
theorem stepKeepsSafeStates : Obligations.StepKeepsSafeStates := by
  intro s t hs h
  cases step_cases h with
  | quiet => exact hs
  | internal i _ _ he hx => exact hs.exec (isEvent_of_enabledTau he) hx
  | event rec rest i _ hp hd hx => exact (hs.takeRecord hp).exec (hs.isEvent_of_pending hp hd) hx
  | reserved rec rest v hp _ => exact (hs.takeRecord hp).command v

end Sys2Proof.Machine
end

section
/-! SUPPORT. O55 and O56: what an operation can only add to. No operation retracts a byte of TX (R52), and none but
RESET clears a flag of ERR (R30). -/

namespace Sys2Proof.Machine

/-- `t` has every byte of TX that `s` has, in the same places, and every flag of ERR. -/
structure OnlyAdds (s t : State) : Prop where
  tx : s.tx <+: t.tx
  flags : ∀ f, s.hasErr f = true → t.hasErr f = true

theorem OnlyAdds.of_same {s t : State} (htx : t.tx = s.tx) (herr : t.err = s.err) : OnlyAdds s t where
  tx := htx ▸ List.prefix_rfl
  flags _ h := by rwa [State.hasErr, herr]

theorem OnlyAdds.refl (s : State) : OnlyAdds s s := .of_same rfl rfl

theorem OnlyAdds.trans {s t u : State} (hst : OnlyAdds s t) (htu : OnlyAdds t u) : OnlyAdds s u where
  tx := hst.tx.trans htu.tx
  flags f h := htu.flags f (hst.flags f h)

/-! ### The operations' parts -/

theorem onlyAdds_raise (f : ErrFlag) (s : State) : OnlyAdds s (raise f s) where
  tx := List.prefix_rfl
  flags g h := by simp [hasErr_raise, h]

theorem onlyAdds_emitBytes (bs : List Byte) (s : State) : OnlyAdds s (emitBytes bs s) where
  tx := List.prefix_append s.tx bs
  flags f h := by simp [hasErr_emitBytes, h]

theorem onlyAdds_latchConfig (s : State) : OnlyAdds s (latchConfig s) where
  tx := by simp
  flags f h := by simp [hasErr_latchConfig, h]

theorem onlyAdds_raiseDegen (m : Mode) (s : State) : OnlyAdds s (raiseDegen m s) where
  tx := by simp
  flags f h := by simp [hasErr_raiseDegen, h]

theorem onlyAdds_startBlock (s : State) : OnlyAdds s (startBlock s) := by
  obtain ⟨-, h⟩ | ⟨-, -, h⟩ | ⟨-, -, -, h⟩ | ⟨-, -, -, h⟩ := startBlock_cases s <;> rw [h]
  · exact onlyAdds_raise .badCmd s
  · exact (onlyAdds_raise .noTransport s).trans (.of_same rfl rfl)
  · exact .refl s
  · have hlatch := onlyAdds_latchConfig { s with modeAct := s.mode, srcHeld := true, txHeld := true }
    exact { hlatch with }

/-- A full tick raises flags when it latches and samples, and emits at its end (R166). -/
theorem onlyAdds_fullTick (s : State) : OnlyAdds s (fullTick s) := by
  obtain ⟨tgt, bs, h⟩ := fullTick_phases s
  rw [h]
  have hsampled : OnlyAdds s (raiseDegen s.modeAct (latchConfig s)) :=
    (onlyAdds_latchConfig s).trans (onlyAdds_raiseDegen s.modeAct _)
  have hcontrol : OnlyAdds s (controlPhase (raiseDegen s.modeAct (latchConfig s)) tgt) :=
    hsampled.trans (.of_same rfl rfl)
  exact (hcontrol.trans (onlyAdds_emitBytes bs _)).trans (.of_same rfl rfl)

theorem onlyAdds_tickBlock (s : State) : OnlyAdds s (tickBlock s) := by
  obtain ⟨-, h⟩ | ⟨-, -, -, h⟩ | ⟨-, -, -, -, h⟩ | ⟨-, -, -, -, h⟩ := tickBlock_cases s <;> rw [h]
  · exact .refl s
  · exact onlyAdds_raise .overrun s
  · exact onlyAdds_raise .noFrame s
  · exact onlyAdds_fullTick s

theorem onlyAdds_command (v : Word) (s : State) : OnlyAdds s (command v s) := by
  obtain ⟨-, h⟩ | ⟨-, h⟩ | ⟨-, h⟩ | ⟨-, h⟩ := command_cases v s <;> rw [h]
  · exact onlyAdds_startBlock s
  · exact onlyAdds_tickBlock s
  · exact .of_same rfl rfl
  · exact onlyAdds_raise .badCmd s

theorem WriteEffect.onlyAdds {v : Word} {s t : State} (h : WriteEffect v s t) : OnlyAdds s t := by
  cases h with
  | command => exact onlyAdds_command v s
  | refused => exact onlyAdds_raise .badWr s
  | _ => exact .of_same rfl rfl

theorem onlyAdds_writePixel (a : Nat) (b : Byte) (s : State) : OnlyAdds s (writePixel a b s) := by
  obtain ⟨-, h⟩ | ⟨-, h⟩ := writePixel_cases a b s <;> rw [h]
  · exact .of_same rfl rfl
  · exact onlyAdds_raise .badWr s

/-! ### The operations and the steps -/

/-- RESET clears the flags, and is the only operation that does (R30, R215). -/
theorem exec_onlyAdds {s t : State} {i : Instr} (hi : i ≠ .reset) (h : exec i s = .next t) : OnlyAdds s t := by
  cases i with
  | reset => exact absurd rfl hi
  | start => cases h; exact onlyAdds_startBlock s
  | tick => cases h; exact onlyAdds_tickBlock s
  | wrreg n v => cases h; exact (writeReg_cases (regOf n) v s).onlyAdds
  | wrfb a b => cases h; exact onlyAdds_writePixel a.toNat b s
  | latchcfg => cases h; exact onlyAdds_latchConfig s
  | sampleAbs => cases h; exact (onlyAdds_raiseDegen .abs s).trans (.of_same rfl rfl)
  | sampleDelta => cases h; exact (onlyAdds_raiseDegen .delta s).trans (.of_same rfl rfl)
  | sampleSingle => cases h; exact (onlyAdds_raiseDegen .single s).trans (.of_same rfl rfl)
  | ctrl r c tgt =>
    simp only [exec, execCtrl] at h
    split at h <;> cases h <;> exact .of_same rfl rfl
  | emit r c v => cases h; exact onlyAdds_emitBytes _ s
  | tauClose => cases h; exact .of_same (fireClose_tx s) (fireClose_err s)
  | tauStop => cases h; exact .of_same (fireStop_tx s) (fireStop_err s)
  | _ => cases h; exact .of_same rfl rfl

/-- RESET keeps TX (R217), so every operation extends it. -/
theorem exec_tx_prefix {s t : State} {i : Instr} (h : exec i s = .next t) : s.tx <+: t.tx := by
  by_cases hi : i = .reset
  · subst hi
    cases h
    exact List.prefix_rfl
  · exact (exec_onlyAdds hi h).tx

theorem step_tx_prefix {s t : State} (h : step s = .next t) : s.tx <+: t.tx := by
  cases step_cases h with
  | quiet => exact List.prefix_rfl
  | internal _ _ _ _ hx => exact exec_tx_prefix hx
  | event rec rest _ _ _ _ hx => exact exec_tx_prefix (s := takeRecord rec rest s) hx
  | reserved rec rest v _ _ => exact (onlyAdds_command v (takeRecord rec rest s)).tx

/-- Settles O55, by what a step can have done. -/
theorem txOnlyGrows : Obligations.TxOnlyGrows := by
  intro s t h
  obtain ⟨bs, hbs⟩ := step_tx_prefix h
  exact ⟨bs, hbs.symm⟩

/-- Settles O56, by the operations one by one. -/
theorem errorFlagsAreSticky : Obligations.ErrorFlagsAreSticky :=
  fun _ _ _ f hi h => (exec_onlyAdds hi h).flags f

end Sys2Proof.Machine
end

section
/-! SUPPORT. O51: what a register reads as after a write. -/

namespace Sys2Proof.Machine

/-! ### Registers that keep a field of the word -/

/-- A 16-bit register zero-extends the low 16 bits of the word written (R34). -/
theorem toNat_lowHalf (v : Word) : ((v.setWidth 16).setWidth 32 : Word).toNat = v.toNat % 65536 := by
  simp only [BitVec.toNat_setWidth]
  omega

/-- The lowest bit of the word written to FRAME_VALID (R47). -/
theorem toNat_lowBit (v : Word) : ((BitVec.ofBool (v.getLsbD 0)).setWidth 32 : Word).toNat = v.toNat % 2 := by
  simp only [BitVec.toNat_setWidth, BitVec.toNat_ofBool, BitVec.getLsbD, Nat.testBit_zero]
  rcases Nat.mod_two_eq_zero_or_one v.toNat with h | h <;> simp [h]

/-- The registers that keep 16 bits in every state (R40 to R44). -/
theorem readReg_writeReg_half {r : Reg} (v : Word) (s : State)
    (hr : r ∈ [Reg.kp, .smooth, .noise, .gap, .cellSel]) :
    readReg r (writeReg r v s) = (v.setWidth 16).setWidth 32 := by
  simp only [List.mem_cons, List.not_mem_nil, or_false] at hr
  rcases hr with rfl | rfl | rfl | rfl | rfl <;> rfl

/-- A gamma table entry is written in IDLE (R48). -/
theorem readReg_writeReg_glut (i : Fin 256) (v : Word) {s : State} (hidle : s.st = .idle) :
    readReg (.glut i) (writeReg (.glut i) v s) = (v.setWidth 16).setWidth 32 := by
  simp [readReg, writeReg, hidle]

/-! ### MODE -/

/-- The words that ask for a mode are 0, 1 and 2, and each is the code of its mode (R38). -/
theorem modeOf_of_le_two {v : Word} (hv : v.toNat ≤ 2) : ∃ m, modeOf v = some m ∧ (modeCode m).setWidth 32 = v := by
  have hcode : v = 0 ∨ v = 1 ∨ v = 2 := by bv_omega
  obtain rfl | rfl | rfl := hcode
  · exact ⟨.abs, rfl, rfl⟩
  · exact ⟨.delta, rfl, rfl⟩
  · exact ⟨.single, rfl, rfl⟩

theorem readReg_writeReg_mode {v : Word} {s : State} (hidle : s.st = .idle) (hv : v.toNat ≤ 2) :
    readReg .mode (writeReg .mode v s) = v := by
  obtain ⟨m, hm, hcode⟩ := modeOf_of_le_two hv
  simp [readReg, writeReg, hm, hidle, hcode]

/-! ### The register port -/

/-- WRREG, then RDREG of the same number: the word read is that of the register written. -/
theorem rdData_wrreg_rdreg {s t u : State} {n v : Word} (hw : exec (.wrreg n v) s = .next t)
    (hr : exec (.rdreg n) t = .next u) : u.rdData = readReg (regOf n) (writeReg (regOf n) v s) := by
  cases hw
  cases hr
  rfl

/-- Settles O51, register by register. -/
theorem writtenRegistersReadBack : Obligations.WrittenRegistersReadBack := by
  intro s t u n v hw hr
  rw [rdData_wrreg_rdreg hw hr]
  refine ⟨?word, ?half, ?bit, ?mode⟩
  case word =>
    rintro (rfl | rfl) <;> rfl
  case half =>
    intro hn
    rw [← toNat_lowHalf v]
    congr 1
    obtain rfl | rfl | rfl | rfl | rfl | ⟨hlo, hhi, hidle⟩ := hn
    · exact readReg_writeReg_half (r := .kp) v s (by decide)
    · exact readReg_writeReg_half (r := .smooth) v s (by decide)
    · exact readReg_writeReg_half (r := .noise) v s (by decide)
    · exact readReg_writeReg_half (r := .gap) v s (by decide)
    · exact readReg_writeReg_half (r := .cellSel) v s (by decide)
    · rw [regOf_glut (n := n) (i := n.toNat - 0x100) (by omega) (by omega)]
      exact readReg_writeReg_glut _ v hidle
  case bit =>
    rintro rfl
    exact toNat_lowBit v
  case mode =>
    rintro rfl hidle hv
    exact readReg_writeReg_mode hidle hv

end Sys2Proof.Machine
end

section
/-! SUPPORT. O12 and O13: the gamma table at reset, and the state at power-on. -/

namespace Sys2Proof.Machine

/-- Each entry of the literal table is less than 1/2 away from 65280·(i/255)^(5/11) (R49): that bound, doubled, and
raised to the 11th power to clear the root. -/
theorem glutReset_nearest : ∀ i : Fin 256,
    (2 * glutAt glutReset i - 1) ^ 11 * 255 ^ 5 < 130560 ^ 11 * (i : Int) ^ 5 ∧
    130560 ^ 11 * (i : Int) ^ 5 < (2 * glutAt glutReset i + 1) ^ 11 * 255 ^ 5 := by
  decide +kernel

/-- Settles O12, by the entries of the table. -/
theorem defaultTableIsThePowerLaw : Obligations.DefaultTableIsThePowerLaw :=
  ⟨rfl, fun i _ hi => glutReset_nearest ⟨i, by omega⟩⟩

theorem config_params_wf : Config.params.wf = true := by decide

/-- Settles O13. -/
theorem resetStateIsSafe : Obligations.ResetStateIsSafe :=
  ⟨fun _ hp => safe_resetOf hp, safe_resetOf config_params_wf⟩

end Sys2Proof.Machine
end

section
/-! SUPPORT. O26: CTRL outside the control region. -/

namespace Sys2Proof.Machine

/-- CTRL on a cell outside the control region (R23, R24; log 12). -/
theorem execCtrl_outside {s : State} {r c : Byte} (t : Target) (h : s.inRegion r.toNat c.toNat = false) :
    execCtrl r c t s = .next s := by
  rw [execCtrl, h]
  exact if_neg Bool.false_ne_true

/-- Settles O26. -/
theorem ctrlOutsideTheRegionChangesNothing : Obligations.CtrlOutsideTheRegionChangesNothing :=
  fun _ _ _ t h => execCtrl_outside t h

end Sys2Proof.Machine
end

section
/-! SUPPORT. O40: which flags a full tick raises, and what it leaves unchanged. -/

namespace Sys2Proof.Machine

open Sys2Proof.Statements

/-- The flags after a full tick, phase by phase: those before it, BADGRID by LATCHCFG (R165), DEGEN by the sampling
phase (R103), and TXFAIL when the pin reported a failure at an emitted byte (R144). -/
theorem hasErr_fullTick (s : State) :
    ∃ fails : Bool, ∀ f, (fullTick s).hasErr f =
      (s.hasErr f || (decide (f = .badGrid) && !s.gridValid)
        || (decide (f = .degen) && degenerate s.modeAct (latchConfig s)) || (decide (f = .txFail) && fails)) := by
  obtain ⟨tgt, bs, h⟩ := fullTick_phases s
  refine ⟨s.pins.txFail && !bs.isEmpty, fun f => ?_⟩
  calc (fullTick s).hasErr f
      = (emitBytes bs (controlPhase (raiseDegen s.modeAct (latchConfig s)) tgt)).hasErr f := by rw [h]; rfl
    _ = ((raiseDegen s.modeAct (latchConfig s)).hasErr f ||
          (decide (f = .txFail) && (s.pins.txFail && !bs.isEmpty))) := by
        rw [hasErr_emitBytes]
        simp [State.hasErr]
    _ = _ := by rw [hasErr_raiseDegen, hasErr_latchConfig]

/-- TICK is the full tick when the conditions of R163 hold. -/
theorem tickBlock_of_tickRuns {s : State} (h : TickRuns s) : tickBlock s = fullTick s := by
  obtain ⟨hst, hclose, hbusy, hframe⟩ := h
  simp [tickBlock, hst, hclose, hbusy, hframe]

/-- Settles O40, by the frame and the flags of a full tick. -/
theorem fullTickChangesOnlyItsOutputs : Obligations.FullTickChangesOnlyItsOutputs := by
  intro s hrun
  obtain ⟨fails, hflags⟩ := hasErr_fullTick s
  refine ⟨fullTick s, congrArg _ (tickBlock_of_tickRuns hrun), ?frame, fun f => ⟨?sticky, ?others, ?badGrid⟩⟩
  case frame =>
    obtain ⟨-, -, hbusy, -⟩ := hrun
    exact (fullTick_frame s).trans (by rw [hbusy])
  case sticky => exact (onlyAdds_fullTick s).flags f
  case others =>
    intro hgrid hdegen htx
    simp [hflags f, hgrid, hdegen, htx]
  case badGrid => simp [hflags .badGrid]

end Sys2Proof.Machine
end

section
/-! SUPPORT. O59: who writes the configuration. -/

namespace Sys2Proof.Machine

/-- `t` has the host's configuration of `s` (R77), and outside IDLE the mode of the run (R38). -/
structure KeepsConfig (s t : State) : Prop where
  mode : t.mode = s.mode
  gridN : t.gridN = s.gridN
  gridM : t.gridM = s.gridM
  kp : t.kp = s.kp
  smooth : t.smooth = s.smooth
  noise : t.noise = s.noise
  gap : t.gap = s.gap
  cellSel : t.cellSel = s.cellSel
  glut : t.glut = s.glut
  modeAct : s.st ≠ .idle → t.modeAct = s.modeAct

/-- Outside IDLE, MODE, GLUT and MODE_ACT of `t` are those of `s` (R38, R48). -/
def KeepsLocked (s t : State) : Prop := s.st ≠ .idle → t.mode = s.mode ∧ t.glut = s.glut ∧ t.modeAct = s.modeAct

theorem KeepsConfig.keepsLocked {s t : State} (h : KeepsConfig s t) : KeepsLocked s t :=
  fun hst => ⟨h.mode, h.glut, h.modeAct hst⟩

theorem KeepsConfig.refl (s : State) : KeepsConfig s s := by
  constructor <;> simp

theorem keepsConfig_raise (f : ErrFlag) (s : State) : KeepsConfig s (raise f s) :=
  { KeepsConfig.refl s with }

theorem keepsConfig_emitBytes (bs : List Byte) (s : State) : KeepsConfig s (emitBytes bs s) :=
  { KeepsConfig.refl s with }

theorem keepsConfig_latchConfig (s : State) : KeepsConfig s (latchConfig s) := by
  constructor <;> simp

theorem keepsConfig_raiseDegen (m : Mode) (s : State) : KeepsConfig s (raiseDegen m s) := by
  constructor <;> simp

/-- START latches MODE into MODE_ACT, and does so in IDLE (R38, R161). -/
theorem keepsConfig_startBlock (s : State) : KeepsConfig s (startBlock s) := by
  obtain ⟨-, h⟩ | ⟨-, -, h⟩ | ⟨-, -, -, h⟩ | ⟨hidle, -, -, h⟩ := startBlock_cases s <;> rw [h]
  · exact keepsConfig_raise .badCmd s
  · exact { keepsConfig_raise .noTransport s with }
  · exact .refl s
  · have hlatch := keepsConfig_latchConfig { s with modeAct := s.mode, srcHeld := true, txHeld := true }
    exact { hlatch with modeAct := fun hne => absurd hidle hne }

theorem keepsConfig_tickBlock (s : State) : KeepsConfig s (tickBlock s) := by
  obtain ⟨-, h⟩ | ⟨-, -, -, h⟩ | ⟨-, -, -, -, h⟩ | ⟨-, -, -, -, h⟩ := tickBlock_cases s <;> rw [h]
  · exact .refl s
  · exact keepsConfig_raise .overrun s
  · exact keepsConfig_raise .noFrame s
  · rw [fullTick_frame]
    exact { KeepsConfig.refl s with }

theorem keepsConfig_command (v : Word) (s : State) : KeepsConfig s (command v s) := by
  obtain ⟨-, h⟩ | ⟨-, h⟩ | ⟨-, h⟩ | ⟨-, h⟩ := command_cases v s <;> rw [h]
  · exact keepsConfig_startBlock s
  · exact keepsConfig_tickBlock s
  · exact { KeepsConfig.refl s with }
  · exact keepsConfig_raise .badCmd s

theorem keepsConfig_writePixel (a : Nat) (b : Byte) (s : State) : KeepsConfig s (writePixel a b s) := by
  obtain ⟨-, h⟩ | ⟨-, h⟩ := writePixel_cases a b s <;> rw [h]
  · exact { KeepsConfig.refl s with }
  · exact keepsConfig_raise .badWr s

/-- A register write takes effect on MODE and on GLUT in IDLE only (R38, R48, R158). -/
theorem WriteEffect.keepsLocked {v : Word} {s t : State} (h : WriteEffect v s t) : KeepsLocked s t := by
  cases h with
  | command => exact (keepsConfig_command v s).keepsLocked
  | mode _ hidle _ => exact fun hne => absurd hidle hne
  | glut _ hidle => exact fun hne => absurd hidle hne
  | _ => exact fun _ => ⟨rfl, rfl, rfl⟩

/-- Every operation but a register write and RESET leaves the configuration to the host (R77). -/
theorem exec_keepsConfig {i : Instr} {s t : State} (hr : i ≠ .reset) (hw : ∀ n v, i ≠ .wrreg n v)
    (h : exec i s = .next t) : KeepsConfig s t := by
  cases i with
  | reset => exact absurd rfl hr
  | wrreg n v => exact absurd rfl (hw n v)
  | start => cases h; exact keepsConfig_startBlock s
  | tick => cases h; exact keepsConfig_tickBlock s
  | wrfb a b => cases h; exact keepsConfig_writePixel a.toNat b s
  | latchcfg => cases h; exact keepsConfig_latchConfig s
  | sampleAbs => cases h; exact { keepsConfig_raiseDegen .abs s with }
  | sampleDelta => cases h; exact { keepsConfig_raiseDegen .delta s with }
  | sampleSingle => cases h; exact { keepsConfig_raiseDegen .single s with }
  | ctrl r c tgt =>
    simp only [exec, execCtrl] at h
    split at h <;> cases h <;> exact { KeepsConfig.refl s with }
  | emit r c v => cases h; exact keepsConfig_emitBytes _ s
  | tauClose => cases h; constructor <;> simp
  | tauStop => cases h; constructor <;> simp
  | _ => cases h; exact { KeepsConfig.refl s with }

/-- Of all operations RESET alone changes MODE, GLUT or MODE_ACT outside IDLE (R38, R48, R77). -/
theorem exec_keepsLocked {i : Instr} {s t : State} (hr : i ≠ .reset) (h : exec i s = .next t) : KeepsLocked s t := by
  by_cases hw : ∃ n v, i = .wrreg n v
  · obtain ⟨n, v, rfl⟩ := hw
    cases h
    exact (writeReg_cases (regOf n) v s).keepsLocked
  · exact (exec_keepsConfig hr (fun n v he => hw ⟨n, v, he⟩) h).keepsLocked

/-- Settles O59, by the operations one by one. -/
theorem configurationIsWrittenByTheHostOnly : Obligations.ConfigurationIsWrittenByTheHostOnly := by
  intro s t i hr h
  refine ⟨fun hw => ?_, exec_keepsLocked hr h⟩
  have hk := exec_keepsConfig hr hw h
  exact ⟨hk.mode, hk.gridN, hk.gridM, hk.kp, hk.smooth, hk.noise, hk.gap, hk.cellSel, hk.glut⟩

end Sys2Proof.Machine
end

section
/-! SUPPORT. O1 and O3: the decoder reads back what the encoder writes. -/

namespace Sys2Proof

/-! ### Which reader a record goes to -/

/-- The four bytes of a word are read as a command word (R81). -/
theorem decode_bytesOfWord (w : Word) : decode (bytesOfWord w) = decodeCommand w := by
  calc decode (bytesOfWord w) = decodeCommand (wordOf (bytesOfWord w)) := rfl
    _ = decodeCommand w := by rw [wordOf_bytesOfWord]

/-- A record of two bytes or more, unless it has the four of a command word, is read by its first byte. -/
theorem decode_of_firstByte (f k : Byte) {rest : List Byte} (h : rest.length ≠ 2) :
    decode (f :: k :: rest) =
      if f = 0x42 then decodeBus k rest
      else if f = 0x4D then decodeMicro k rest
      else if f = 0x50 then decodePin k rest
      else if f = 0x54 then decodeTau k rest
      else if (digitOf f).isSome then decodeLine (f :: k :: rest)
      else .error (.unknownFormat f) :=
  match rest, h with
  | [], _ => rfl
  | [_], _ => rfl
  | [_, _], h => absurd rfl h
  | _ :: _ :: _ :: _, _ => rfl

/-- A record that begins with a digit is read as a command line (R84): no format letter is a digit. -/
theorem decode_of_digit {f : Byte} (hf : (digitOf f).isSome = true) (k : Byte) {rest : List Byte}
    (h : rest.length ≠ 2) : decode (f :: k :: rest) = decodeLine (f :: k :: rest) := by
  have not_letter : ∀ l : Byte, (digitOf l).isSome = false → f ≠ l := fun l hl e => by simp [e, hl] at hf
  rw [decode_of_firstByte f k h, if_neg (not_letter _ (by decide)), if_neg (not_letter _ (by decide)),
    if_neg (not_letter _ (by decide)), if_neg (not_letter _ (by decide)), if_pos hf]

/-! ### Records with words and q-values -/

theorem decode_rdreg (n : Word) : decode (encode (.rdreg n)) = .ok (.rdreg n) :=
  congrArg (fun w => Except.ok (Instr.rdreg w)) (wordOf_bytesOfWord n)

theorem decode_wrreg (n v : Word) : decode (encode (.wrreg n v)) = .ok (.wrreg n v) :=
  congrArg₂ (fun w w' => Except.ok (Instr.wrreg w w')) (wordOf_bytesOfWord n) (wordOf_bytesOfWord v)

theorem decode_wrfb (a : Word) (b : Byte) : decode (encode (.wrfb a b)) = .ok (.wrfb a b) :=
  congrArg (fun w => Except.ok (Instr.wrfb w b)) (wordOf_bytesOfWord a)

/-- A q-value of 0..65280 is one of −65280..65280 (R10). -/
theorem qInRange_of_nonNeg {q : Int} (h : qNonNegInRange q = true) : qInRange q = true := by
  simp only [qNonNegInRange, qInRange, decide_eq_true_eq, qOne] at h ⊢
  omega

theorem decode_ctrl_value (r c : Byte) {q : Int} (h : qInRange q = true) :
    decode (encode (.ctrl r c (.value q))) = .ok (.ctrl r c (.value q)) := by
  calc decode (encode (.ctrl r c (.value q)))
      = if qInRange (qOf (bytesOfQ q)) then .ok (.ctrl r c (.value (qOf (bytesOfQ q)))) else .error .operandRange := rfl
    _ = .ok (.ctrl r c (.value q)) := by rw [qOf_bytesOfQ h, if_pos h]

theorem decode_encAbs {q : Int} (h : qNonNegInRange q = true) : decode (encode (.encAbs q)) = .ok (.encAbs q) := by
  calc decode (encode (.encAbs q))
      = if qNonNegInRange (qOf (bytesOfQ q)) then .ok (.encAbs (qOf (bytesOfQ q))) else .error .operandRange := rfl
    _ = .ok (.encAbs q) := by rw [qOf_bytesOfQ (qInRange_of_nonNeg h), if_pos h]

theorem decode_encDelta {q : Int} (h : qInRange q = true) : decode (encode (.encDelta q)) = .ok (.encDelta q) := by
  calc decode (encode (.encDelta q))
      = if qInRange (qOf (bytesOfQ q)) then .ok (.encDelta (qOf (bytesOfQ q))) else .error .operandRange := rfl
    _ = .ok (.encDelta q) := by rw [qOf_bytesOfQ h, if_pos h]

/-! ### Command lines -/

/-- The line of three bytes is read as their Command (R84, R95). -/
theorem decodeLine_ledLine (row col value : Byte) :
    decodeLine (ledLine row.toNat col.toNat value.toNat) = .ok (.ledcmd row col value) := by
  have le_255 : ∀ b : Byte, b.toNat ≤ 255 := fun b => Nat.le_of_lt_succ b.isLt
  have h := takeLine_ledLine (le_255 row) (le_255 col) (le_255 value) []
  rw [List.append_nil] at h
  simp [decodeLine, h]

/-- A number begins with a digit (R88). -/
theorem dec_eq_digit_cons {n : Nat} (hn : n ≤ 255) : ∃ d t, dec n = d :: t ∧ (digitOf d).isSome = true := by
  cases h : dec n with
  | nil => simpa [h] using (length_dec n).1
  | cons d t => exact ⟨d, t, rfl, mem_dec hn (by simp [h])⟩

/-- A line begins with a digit and is no record of four bytes (R84, R94). -/
theorem ledLine_eq_digit_cons {row : Nat} (hrow : row ≤ 255) (col value : Nat) :
    ∃ d k rest, ledLine row col value = d :: k :: rest ∧ (digitOf d).isSome = true ∧ rest.length ≠ 2 := by
  obtain ⟨d, t, hdec, hd⟩ := dec_eq_digit_cons hrow
  have hlen := (length_ledLine row col value).1
  cases ht : t ++ comma :: dec col ++ comma :: dec value ++ [lineFeed] with
  | nil => simp at ht
  | cons k rest =>
    have hline : ledLine row col value = d :: k :: rest := by rw [← ht, ledLine, hdec]; simp
    refine ⟨d, k, rest, hline, hd, ?_⟩
    rw [hline, List.length_cons, List.length_cons] at hlen
    omega

theorem decode_ledcmd (row col value : Byte) :
    decode (encode (.ledcmd row col value)) = .ok (.ledcmd row col value) := by
  obtain ⟨d, k, rest, hline, hd, hlen⟩ :=
    ledLine_eq_digit_cons (Nat.le_of_lt_succ row.isLt) col.toNat value.toNat
  rw [← decodeLine_ledLine, encode, hline, decode_of_digit hd k hlen]

/-! ### All operations -/

/-- The decoder reads every well-formed operation back from its record, format by format. -/
theorem decode_encode {i : Instr} (h : i.wellFormed = true) : decode (encode i) = .ok i := by
  cases i with
  | start => exact decode_bytesOfWord 1
  | tick => exact decode_bytesOfWord 2
  | close => exact decode_bytesOfWord 3
  | rdreg n => exact decode_rdreg n
  | wrreg n v => exact decode_wrreg n v
  | wrfb a b => exact decode_wrfb a b
  | ctrl r c t =>
    cases t with
    | skip => rfl
    | value q => exact decode_ctrl_value r c h
  | encAbs q => exact decode_encAbs h
  | encDelta q => exact decode_encDelta h
  | ledcmd row col value => exact decode_ledcmd row col value
  | _ => rfl

/-- Settles O1. -/
theorem decodeOfEncodeIsTheOperation : Obligations.DecodeOfEncodeIsTheOperation :=
  fun _ h => decode_encode h

/-- Settles O3: each record but the reserved tag is the encoding of its operation. -/
theorem wordsOfTheSpecDecode : Obligations.WordsOfTheSpecDecode :=
  ⟨decode_encode (i := .start) rfl, decode_encode (i := .tick) rfl, decode_encode (i := .close) rfl,
    decode_encode (i := .sampleAbs) rfl, decode_encode (i := .sampleDelta) rfl,
    decode_encode (i := .sampleSingle) rfl, rfl, decode_encode (i := .ledcmd 4 4 255) rfl⟩

end Sys2Proof
end

section
/-! SUPPORT. O2: each record has one meaning. What each reader accepts is what the encoder writes. -/

namespace Sys2Proof

/-! ### Words and q-values -/

theorem byteOf_add_mul (b : Byte) (n : Nat) : byteOf (b.toNat + 256 * n) = b := by
  apply BitVec.eq_of_toNat_eq
  have := b.isLt
  simp only [byteOf, BitVec.toNat_ofNat]
  omega

theorem bytesOf_natOfBytes (bs : List Byte) : bytesOf bs.length (natOfBytes bs) = bs := by
  induction bs with
  | nil => rfl
  | cons b bs ih =>
    have hdiv : (b.toNat + 256 * natOfBytes bs) / 256 = natOfBytes bs := by
      have := b.isLt
      omega
    rw [List.length_cons, natOfBytes, bytesOf, byteOf_add_mul, hdiv, ih]

theorem natOfBytes_lt (bs : List Byte) : natOfBytes bs < 256 ^ bs.length := by
  induction bs with
  | nil => simp [natOfBytes]
  | cons b bs ih =>
    have := b.isLt
    rw [natOfBytes, List.length_cons, pow_succ]
    omega

/-- Four bytes are the bytes of the word they hold. -/
theorem bytesOfWord_wordOf {bs : List Byte} (h : bs.length = 4) : bytesOfWord (wordOf bs) = bs := by
  have hlt : natOfBytes bs < 2 ^ 32 := by simpa [h] using natOfBytes_lt bs
  have hbytes := bytesOf_natOfBytes bs
  rwa [h, ← Nat.mod_eq_of_lt hlt] at hbytes

/-- Four bytes are the bytes of the q-value they carry. -/
theorem bytesOfQ_qOf {bs : List Byte} (h : bs.length = 4) : bytesOfQ (qOf bs) = bs := by
  rw [bytesOfQ, qOf, BitVec.ofInt_toInt, bytesOfWord_wordOf h]

/-! ### Decimal text -/

theorem digitOf_eq_some {b : Byte} {d : Nat} (h : digitOf b = some d) : d ≤ 9 ∧ b = byteOf (0x30 + d) := by
  unfold digitOf at h
  split at h
  · cases h
    refine ⟨by omega, ?_⟩
    rw [Nat.add_sub_cancel' (by omega), byteOf_toNat]
  · cases h

theorem dec_oneDigit {b : Byte} {d : Nat} (h : digitOf b = some d) : dec d = [b] ∧ d ≤ 255 := by
  obtain ⟨hd, rfl⟩ := digitOf_eq_some h
  exact ⟨by rw [dec, if_neg (by omega), if_neg (by omega)], by omega⟩

theorem dec_twoDigits {b₀ b₁ : Byte} {d₀ d₁ : Nat} (h₀ : digitOf b₀ = some d₀) (hne : d₀ ≠ 0)
    (h₁ : digitOf b₁ = some d₁) : dec (10 * d₀ + d₁) = [b₀, b₁] ∧ 10 * d₀ + d₁ ≤ 255 := by
  obtain ⟨hd₀, rfl⟩ := digitOf_eq_some h₀
  obtain ⟨hd₁, rfl⟩ := digitOf_eq_some h₁
  have hhigh : (10 * d₀ + d₁) / 10 = d₀ := by omega
  have hlow : (10 * d₀ + d₁) % 10 = d₁ := by omega
  exact ⟨by rw [dec, if_neg (by omega), if_pos (by omega), hhigh, hlow], by omega⟩

theorem dec_threeDigits {b₀ b₁ b₂ : Byte} {d₀ d₁ d₂ : Nat} (h₀ : digitOf b₀ = some d₀) (hne : d₀ ≠ 0)
    (h₁ : digitOf b₁ = some d₁) (h₂ : digitOf b₂ = some d₂) :
    dec (100 * d₀ + 10 * d₁ + d₂) = [b₀, b₁, b₂] := by
  obtain ⟨-, rfl⟩ := digitOf_eq_some h₀
  obtain ⟨hd₁, rfl⟩ := digitOf_eq_some h₁
  obtain ⟨hd₂, rfl⟩ := digitOf_eq_some h₂
  have hhigh : (100 * d₀ + 10 * d₁ + d₂) / 100 = d₀ := by omega
  have hmiddle : (100 * d₀ + 10 * d₁ + d₂) / 10 % 10 = d₁ := by omega
  have hlow : (100 * d₀ + 10 * d₁ + d₂) % 10 = d₂ := by omega
  rw [dec, if_pos (by omega), hhigh, hmiddle, hlow]

/-- Reading a number takes off exactly what writing it puts there (R88, R95): the cases are those of the digits read. -/
theorem takeNumber_eq_some {bs t : List Byte} {n : Nat} (h : takeNumber bs = some (n, t)) :
    bs = dec n ++ t ∧ n ≤ 255 := by
  revert h
  fun_cases takeNumber bs <;> intro h <;> cases h
  case case3 hd₀ => exact (dec_oneDigit hd₀).imp_left fun e => by rw [e]; rfl
  case case4 hd₀ _ => exact (dec_oneDigit hd₀).imp_left fun e => by rw [e]; rfl
  case case5 hd₀ _ => exact (dec_oneDigit hd₀).imp_left fun e => by rw [e]; rfl
  case case6 hd₀ hne _ _ hd₁ => exact (dec_twoDigits hd₀ hne hd₁).imp_left fun e => by rw [e]; rfl
  case case7 hd₀ hne _ _ hd₁ _ _ _ => exact (dec_twoDigits hd₀ hne hd₁).imp_left fun e => by rw [e]; rfl
  case case8 hd₀ hne _ _ hd₁ _ _ hd₂ hle => exact ⟨by rw [dec_threeDigits hd₀ hne hd₁ hd₂]; rfl, hle⟩

theorem takeByte_eq_some {b : Byte} {bs t : List Byte} (h : takeByte b bs = some t) : bs = b :: t := by
  cases bs with
  | nil => cases h
  | cons b' t' =>
    simp only [takeByte, Option.ite_none_right_eq_some, Option.some.injEq] at h
    obtain ⟨rfl, rfl⟩ := h
    rfl

/-- Reading a line takes off exactly the line of its Command (R84, R95). -/
theorem takeLine_eq_some {bs t : List Byte} {row col value : Nat} (h : takeLine bs = some ((row, col, value), t)) :
    bs = ledLine row col value ++ t ∧ row ≤ 255 ∧ col ≤ 255 ∧ value ≤ 255 := by
  simp only [takeLine, Option.bind_eq_bind, Option.bind_eq_some_iff, Prod.exists, Option.pure_def,
    Option.some.injEq, Prod.mk.injEq] at h
  obtain ⟨_, t₁, htrow, t₂, hcomma₁, _, t₃, htcol, t₄, hcomma₂, _, t₅, htvalue, t₆, hfeed, ⟨rfl, rfl, rfl⟩, rfl⟩ := h
  obtain ⟨rfl, hrow⟩ := takeNumber_eq_some htrow
  obtain rfl := takeByte_eq_some hcomma₁
  obtain ⟨rfl, hcol⟩ := takeNumber_eq_some htcol
  obtain rfl := takeByte_eq_some hcomma₂
  obtain ⟨rfl, hvalue⟩ := takeNumber_eq_some htvalue
  obtain rfl := takeByte_eq_some hfeed
  exact ⟨by simp [ledLine], hrow, hcol, hvalue⟩

/-! ### The readers, format by format -/

/-- The record of an operation: its encoding, of an operation whose operands lie in their ranges. -/
def IsRecordOf (bs : List Byte) (i : Instr) : Prop := encode i = bs ∧ i.wellFormed = true

theorem decodeCommand_eq_ok {v : Word} {i : Instr} (h : decodeCommand v = .ok i) : IsRecordOf (bytesOfWord v) i := by
  revert h
  fun_cases decodeCommand v <;> intro h <;> cases h <;> subst_vars <;> exact ⟨rfl, rfl⟩

theorem decodeModeTag_eq_ok {t : Byte} {i : Instr} (h : decodeModeTag t = .ok i) : IsRecordOf [t] i := by
  revert h
  fun_cases decodeModeTag t <;> intro h <;> cases h <;> subst_vars <;> exact ⟨rfl, rfl⟩

theorem decodeBus_eq_ok {k : Byte} {rest : List Byte} {i : Instr} (h : decodeBus k rest = .ok i) :
    IsRecordOf (0x42 :: k :: rest) i := by
  revert h
  fun_cases decodeBus k rest <;> intro h <;> cases h
  case case1 hk =>
    subst hk
    exact ⟨by rw [encode, bytesOfWord_wordOf rfl], rfl⟩
  case case3 hk =>
    subst hk
    exact ⟨by rw [encode, bytesOfWord_wordOf rfl, bytesOfWord_wordOf rfl]; rfl, rfl⟩
  case case5 hk =>
    subst hk
    exact ⟨by rw [encode, bytesOfWord_wordOf rfl]; rfl, rfl⟩

theorem decodeMicro_eq_ok {k : Byte} {rest : List Byte} {i : Instr} (h : decodeMicro k rest = .ok i) :
    IsRecordOf (0x4D :: k :: rest) i := by
  revert h
  fun_cases decodeMicro k rest <;> intro h <;> cases h
  case case1 hk =>
    subst hk
    exact ⟨rfl, rfl⟩
  case case3 hk =>
    obtain ⟨rfl, rfl⟩ := hk
    exact ⟨rfl, rfl⟩
  case case4 _ hk =>
    subst hk
    exact ⟨rfl, rfl⟩
  case case6 hk hq =>
    obtain ⟨rfl, rfl⟩ := hk
    exact ⟨by rw [encode, bytesOfQ_qOf rfl], hq⟩
  case case9 hk hq =>
    subst hk
    exact ⟨by rw [encode, bytesOfQ_qOf rfl], hq⟩
  case case11 _ hk hq =>
    subst hk
    exact ⟨by rw [encode, bytesOfQ_qOf rfl], hq⟩

theorem decodePin_eq_ok {k : Byte} {rest : List Byte} {i : Instr} (h : decodePin k rest = .ok i) :
    IsRecordOf (0x50 :: k :: rest) i := by
  revert h
  fun_cases decodePin k rest <;> intro h <;> cases h
  subst_vars
  exact ⟨rfl, rfl⟩

theorem decodeTau_eq_ok {k : Byte} {rest : List Byte} {i : Instr} (h : decodeTau k rest = .ok i) :
    IsRecordOf (0x54 :: k :: rest) i := by
  revert h
  fun_cases decodeTau k rest <;> intro h <;> cases h <;> subst_vars <;> exact ⟨rfl, rfl⟩

theorem decodeLine_eq_ok {bs : List Byte} {i : Instr} (h : decodeLine bs = .ok i) : IsRecordOf bs i := by
  revert h
  fun_cases decodeLine bs <;> intro h <;> cases h
  case case1 row col value hline =>
    obtain ⟨rfl, hrow, hcol, hvalue⟩ := takeLine_eq_some hline
    refine ⟨?_, rfl⟩
    rw [encode, toNat_byteOf (by omega), toNat_byteOf (by omega), toNat_byteOf (by omega), List.append_nil]

theorem decode_eq_ok {bs : List Byte} {i : Instr} (h : decode bs = .ok i) : IsRecordOf bs i := by
  revert h
  fun_cases decode bs <;> intro h
  case case1 => cases h
  case case2 => exact decodeModeTag_eq_ok h
  case case3 b₀ b₁ b₂ b₃ =>
    rw [← bytesOfWord_wordOf (bs := [b₀, b₁, b₂, b₃]) rfl]
    exact decodeCommand_eq_ok h
  case case4 => exact decodeBus_eq_ok h
  case case5 => exact decodeMicro_eq_ok h
  case case6 => exact decodePin_eq_ok h
  case case7 => exact decodeTau_eq_ok h
  case case8 => exact decodeLine_eq_ok h
  case case9 => cases h

/-- Settles O2. -/
theorem encodeOfDecodeIsTheRecord : Obligations.EncodeOfDecodeIsTheRecord :=
  fun _ _ h => decode_eq_ok h

end Sys2Proof
end

section
/-! SUPPORT. O6 and O7: what a number and a line look like. -/

namespace Sys2Proof

theorem digits_three {n : Nat} (h : 100 ≤ n) (hn : n ≤ 255) : Nat.digits 10 n = [n % 10, n / 10 % 10, n / 100] := by
  rw [Nat.digits_def' (by norm_num) (by omega), Nat.digits_def' (by norm_num) (by omega), Nat.div_div_eq_div_mul,
    Nat.digits_of_lt 10 _ (by omega) (by omega)]

theorem digits_two {n : Nat} (h : 10 ≤ n) (hn : n < 100) : Nat.digits 10 n = [n % 10, n / 10] := by
  rw [Nat.digits_def' (by norm_num) (by omega), Nat.digits_of_lt 10 _ (by omega) (by omega)]

/-- Settles O6, by the number of digits. -/
theorem decIsTheDecimalNumeral : Obligations.DecIsTheDecimalNumeral := by
  refine ⟨rfl, fun n hpos hn => ?_⟩
  fun_cases dec n
  case case1 h => rw [digits_three h hn]; rfl
  case case2 h₁ h => rw [digits_two h (by omega)]; rfl
  case case3 h₁ h => rw [Nat.digits_of_lt 10 n (by omega) (by omega)]; rfl

/-! ### The line feed of a line -/

theorem lineFeed_not_mem_dec {n : Nat} (hn : n ≤ 255) : lineFeed ∉ dec n := by
  intro h
  have hdigit := mem_dec hn h
  rw [digitOf_lineFeed] at hdigit
  exact Bool.false_ne_true hdigit

/-- Settles O7: before its line feed a line has digits and commas only (R84, R94). -/
theorem lineHasOneLineFeedAtItsEnd : Obligations.LineHasOneLineFeedAtItsEnd := by
  intro row col value
  have no_feed : ∀ b : Byte, lineFeed ∉ dec b.toNat := fun b => lineFeed_not_mem_dec (Nat.le_of_lt_succ b.isLt)
  have comma_ne : lineFeed ≠ comma := by decide
  obtain ⟨hlo, hhi⟩ := length_ledLine row.toNat col.toNat value.toNat
  refine ⟨hlo, hhi, dec row.toNat ++ comma :: dec col.toNat ++ comma :: dec value.toNat, rfl, ?_⟩
  change lineFeed ∉ _
  simp [no_feed, comma_ne]

end Sys2Proof
end

section
/-! SUPPORT. O4 and O5: a reserved command word, written to CMD and as a record. -/

namespace Sys2Proof.Machine

/-- BADCMD is bit 5 of ERR (R37). -/
theorem raise_badCmd (s : State) : raise .badCmd s = { s with err := s.err ||| 0x20 } := rfl

/-- Every command word but 1, 2 and 3 is reserved (R91). -/
theorem command_reserved {v : Word} (h₁ : v ≠ 1) (h₂ : v ≠ 2) (h₃ : v ≠ 3) (s : State) :
    command v s = raise .badCmd s := by
  obtain ⟨h, -⟩ | ⟨h, -⟩ | ⟨h, -⟩ | ⟨-, h⟩ := command_cases v s
  · exact absurd h h₁
  · exact absurd h h₂
  · exact absurd h h₃
  · exact h

/-- Settles O4. -/
theorem reservedCommandWordOnlyRaisesBadcmd : Obligations.ReservedCommandWordOnlyRaisesBadcmd := by
  intro v s h₁ h₂ h₃
  rw [← raise_badCmd, ← command_reserved h₁ h₂ h₃]
  rfl

theorem decodeCommand_of_reserved {v : Word} (h₁ : v ≠ 1) (h₂ : v ≠ 2) (h₃ : v ≠ 3) :
    decodeCommand v = .error (.reservedCommand v) := by
  rw [decodeCommand, if_neg h₁, if_neg h₂, if_neg h₃]

/-- A reserved word at the head of the events reaches CMD (R91; log 15). -/
theorem step_of_reserved {s : State} {rec : Record} {rest : List Record} {v : Word} (hp : s.pending = rec :: rest)
    (hd : decode rec.bytes = .error (.reservedCommand v)) : step s = .next (command v (takeRecord rec rest s)) := by
  simp only [step, fetch, hp, hd]

/-- Settles O5. -/
theorem reservedCommandRecordOnlyRaisesBadcmd : Obligations.ReservedCommandRecordOnlyRaisesBadcmd := by
  intro v s h₁ h₂ h₃
  have hd : decode (bytesOfWord v) = .error (.reservedCommand v) :=
    (decode_bytesOfWord v).trans (decodeCommand_of_reserved h₁ h₂ h₃)
  refine ⟨hd, fun rec rest hp hbytes => ?_⟩
  rw [step_of_reserved hp (hbytes ▸ hd), command_reserved h₁ h₂ h₃, raise_badCmd]
  rfl

end Sys2Proof.Machine
end

section
/-! SUPPORT. O10: after a close request the events come to an end, and then the run does. -/

namespace Sys2Proof.Machine

/-! ### What an event can do after a close request -/

/-- `t` comes after `s` in a run with a close request: the request stays, nothing is emitted, IDLE is not entered. -/
structure Closes (s t : State) : Prop where
  closeReq : t.closeReq = true
  tx : t.tx = s.tx
  idle : t.st = .idle → s.st = .idle

theorem Closes.refl {s : State} (h : s.closeReq = true) : Closes s s := ⟨h, rfl, id⟩

theorem Closes.trans {s t u : State} (hst : Closes s t) (htu : Closes t u) : Closes s u :=
  ⟨htu.closeReq, htu.tx.trans hst.tx, fun h => hst.idle (htu.idle h)⟩

theorem closes_startBlock {s : State} (h : s.closeReq = true) : Closes s (startBlock s) := by
  obtain ⟨-, e⟩ | ⟨-, -, e⟩ | ⟨-, -, -, e⟩ | ⟨-, -, -, e⟩ := startBlock_cases s <;> rw [e]
  · exact ⟨h, rfl, id⟩
  · exact ⟨h, rfl, nofun⟩
  · exact .refl h
  · exact ⟨by simpa using h, by simp, nofun⟩

/-- A close request ignores every further TICK (R163). -/
theorem closes_tickBlock {s : State} (h : s.closeReq = true) : Closes s (tickBlock s) := by
  obtain ⟨-, e⟩ | ⟨-, hno, -⟩ | ⟨-, hno, -⟩ | ⟨-, hno, -⟩ := tickBlock_cases s
  · rw [e]
    exact .refl h
  · simp [h] at hno
  · simp [h] at hno
  · simp [h] at hno

theorem closes_command (v : Word) {s : State} (h : s.closeReq = true) : Closes s (command v s) := by
  obtain ⟨-, e⟩ | ⟨-, e⟩ | ⟨-, e⟩ | ⟨-, e⟩ := command_cases v s <;> rw [e]
  · exact closes_startBlock h
  · exact closes_tickBlock h
  · exact ⟨rfl, rfl, id⟩
  · exact ⟨h, rfl, id⟩

theorem WriteEffect.closes {v : Word} {s t : State} (hw : WriteEffect v s t) (h : s.closeReq = true) : Closes s t := by
  cases hw with
  | command => exact closes_command v h
  | _ => exact ⟨h, rfl, id⟩

theorem closes_writePixel (a : Nat) (b : Byte) {s : State} (h : s.closeReq = true) : Closes s (writePixel a b s) := by
  obtain ⟨-, e⟩ | ⟨-, e⟩ := writePixel_cases a b s <;> rw [e] <;> exact ⟨h, rfl, id⟩

theorem closes_fireClose {s : State} (h : s.closeReq = true) : Closes s (fireClose s) := by
  unfold fireClose
  split
  · exact ⟨h, rfl, nofun⟩
  · exact .refl h

theorem closes_fireStop {s : State} (h : s.closeReq = true) : Closes s (fireStop s) := by
  unfold fireStop
  split
  · exact ⟨h, rfl, nofun⟩
  · exact .refl h

/-- Every event but RESET, after a close request. -/
theorem exec_closes {s t : State} {i : Instr} (h : s.closeReq = true) (hi : i.isEvent = true) (hr : i ≠ .reset)
    (hx : exec i s = .next t) : Closes s t := by
  cases i with
  | start => cases hx; exact closes_startBlock h
  | tick => cases hx; exact closes_tickBlock h
  | close => cases hx; exact ⟨rfl, rfl, id⟩
  | rdreg n => cases hx; exact ⟨h, rfl, id⟩
  | wrreg n v => cases hx; exact (writeReg_cases (regOf n) v s).closes h
  | wrfb a b => cases hx; exact closes_writePixel a.toNat b h
  | reset => exact absurd rfl hr
  | tauClose => cases hx; exact closes_fireClose h
  | tauStop => cases hx; exact closes_fireStop h
  | _ => cases hi

/-! ### Steps with events to come -/

/-- A record that stands for an event other than RESET, or for a reserved command word (R91). -/
def Record.NoReset (rec : Record) : Prop :=
  (∃ i, decode rec.bytes = .ok i ∧ i.isEvent = true ∧ i ≠ .reset) ∨
    ∃ v, decode rec.bytes = .error (.reservedCommand v)

/-- After a close request, a step takes one event and closes on. -/
theorem step_closes {s : State} {rec : Record} {rest : List Record} (h : s.closeReq = true)
    (hp : s.pending = rec :: rest) (hrec : rec.NoReset) :
    ∃ t, step s = .next t ∧ t.pending = rest ∧ Closes s t := by
  have htake : Closes s (takeRecord rec rest s) := ⟨h, rfl, id⟩
  obtain ⟨i, hd, hi, hr⟩ | ⟨v, hd⟩ := hrec
  · obtain ⟨t, hx⟩ := exec_answers i (takeRecord rec rest s)
    obtain ⟨⟨-, -, hpending⟩, -⟩ := exec_keeps hx
    refine ⟨t, ?_, hpending, htake.trans (exec_closes h hi hr hx)⟩
    rw [step_of_fetch_run (fetch_of_pending hp hd), hx]
  · obtain ⟨⟨-, -, hpending⟩, -⟩ := command_keeps v (takeRecord rec rest s)
    exact ⟨_, step_of_reserved hp hd, hpending, htake.trans (closes_command v h)⟩

/-! ### Steps with no event to come -/

/-- With no event to come, the enabled transition fires (R170; log 10). -/
theorem step_of_enabledTau {s : State} {i : Instr} (hp : s.pending = []) (he : enabledTau s = some i) :
    step s = exec i s := by
  simp only [step, fetch, hp, he]

/-- With no event to come and no transition enabled, the block does nothing (R213). -/
theorem step_of_quiet {s : State} (hp : s.pending = []) (he : enabledTau s = none) : step s = .next s := by
  simp only [step, fetch, hp, he]

theorem step_quiet_running {s : State} (hp : s.pending = []) (hst : s.st = .running) (hc : s.closeReq = true)
    (hb : s.busy = false) : step s = .next { s with st := .shutting } := by
  have hen : s.closeEnabled = true := by simp [State.closeEnabled, hst, hc, hb]
  rw [step_of_enabledTau hp (i := .tauClose) (by simp [enabledTau, hen]), exec, execTauClose, fireClose, if_pos hen]

theorem step_quiet_shutting {s : State} (hp : s.pending = []) (hst : s.st = .shutting) :
    step s = .next (fireStop s) := by
  rw [step_of_enabledTau hp (i := .tauStop) (by simp [enabledTau, State.closeEnabled, State.stopEnabled, hst])]
  rfl

theorem step_quiet_ended {s : State} (hp : s.pending = []) (hst : s.st = .idle ∨ s.st = .stopped) :
    step s = .next s := by
  refine step_of_quiet hp ?_
  obtain hst | hst := hst <;> simp [enabledTau, State.closeEnabled, State.stopEnabled, hst]

/-! ### Runs -/

theorem run_succ {M : Host.Core} {s t : M.State} {k : Nat} {o : Host.Outcome M.State M.Fault M.Refusal}
    (hstep : M.step s = .next t) (hrun : M.run k t = o) : M.run (k + 1) s = o := by
  rw [Host.Core.run, hstep]
  exact hrun

/-- The machine's own run, one step at a time. -/
theorem run_of_step {s t u : State} {k : Nat} (hstep : step s = .next t)
    (hrun : Host.Core.run Sys2Proof.core k t = .next u) : Host.Core.run Sys2Proof.core (k + 1) s = .next u :=
  run_succ (M := Sys2Proof.core) hstep hrun

/-- The end of a run that began in `s`: STOPPED, or IDLE if it began there; nothing held and nothing emitted. -/
structure Ended (s t : State) : Prop where
  st : t.st = .stopped ∨ (s.st = .idle ∧ t.st = .idle)
  srcHeld : t.srcHeld = false
  txHeld : t.txHeld = false
  tx : t.tx = s.tx

theorem Closes.ended {s t u : State} (hst : Closes s t) (htu : Ended t u) : Ended s u :=
  { htu with st := htu.st.imp_right (And.imp_left hst.idle), tx := htu.tx.trans hst.tx }

/-- In a good state outside RUNNING and SHUTTING both collaborators are released (R46). -/
theorem Safe.ended {s : State} (hs : Safe s) (hst : s.st = .idle ∨ s.st = .stopped) : Ended s s := by
  obtain ⟨hsrc, htx⟩ := hs.held
  have hsrc : s.srcHeld = false := by
    rw [hsrc]
    obtain hst | hst := hst <;> simp [hst]
  exact ⟨hst.symm.imp_right fun h => ⟨h, h⟩, hsrc, htx.trans hsrc, rfl⟩

theorem ended_fireStop {s : State} (hst : s.st = .shutting) : Ended s (fireStop s) := by
  rw [fireStop, if_pos (by simp [State.stopEnabled, hst])]
  exact ⟨.inl rfl, rfl, rfl, rfl⟩

theorem fireStop_st {s : State} (hst : s.st = .shutting) : (fireStop s).st = .stopped := by
  rw [fireStop, if_pos (by simp [State.stopEnabled, hst])]

/-- With no event to come, two steps end a run that a close was requested for: TAU.CLOSE and TAU.STOP from RUNNING,
TAU.STOP from SHUTTING (R167, R168). -/
theorem run_two_ends {s : State} (hs : Safe s) (hc : s.closeReq = true) (hp : s.pending = []) :
    ∃ t, Host.Core.run Sys2Proof.core 2 s = .next t ∧ Ended s t := by
  have stays (h : s.st = .idle ∨ s.st = .stopped) : Host.Core.run Sys2Proof.core 2 s = .next s ∧ Ended s s := by
    have hstep := step_quiet_ended hp h
    exact ⟨run_of_step hstep (run_of_step hstep rfl), hs.ended h⟩
  cases hst : s.st with
  | idle => exact ⟨s, stays (.inl hst)⟩
  | stopped => exact ⟨s, stays (.inr hst)⟩
  | shutting =>
    have hlast := step_quiet_ended (s := fireStop s) (by simpa using hp) (.inr (fireStop_st hst))
    exact ⟨fireStop s, run_of_step (step_quiet_shutting hp hst) (run_of_step hlast rfl), ended_fireStop hst⟩
  | running =>
    have hshut : Closes s { s with st := .shutting } := ⟨hc, rfl, nofun⟩
    have hfirst := step_quiet_running hp hst hc hs.notBusy
    have hlast := step_quiet_shutting (s := { s with st := .shutting }) hp rfl
    exact ⟨_, run_of_step hfirst (run_of_step hlast rfl), hshut.ended (ended_fireStop rfl)⟩

/-- As many steps as there are events, and two more, end the run. -/
theorem run_ends {s : State} (hs : Safe s) (hc : s.closeReq = true) (hrecs : ∀ rec ∈ s.pending, rec.NoReset) :
    ∃ t, Host.Core.run Sys2Proof.core (s.pending.length + 2) s = .next t ∧ Ended s t := by
  induction hp : s.pending generalizing s with
  | nil => exact run_two_ends hs hc hp
  | cons rec rest ih =>
    rw [hp] at hrecs
    obtain ⟨t, hstep, hrest, hst⟩ := step_closes hc hp (hrecs rec List.mem_cons_self)
    obtain ⟨u, hrun, htu⟩ := ih (stepKeepsSafeStates s t hs hstep) hst.closeReq
      (fun e he => hrecs e (List.mem_cons_of_mem rec (hrest ▸ he))) hrest
    exact ⟨u, Nat.add_right_comm rest.length 1 2 ▸ run_of_step hstep hrun, hst.ended htu⟩

/-- Settles O10, by induction on the events to come. -/
theorem closeAlwaysEndsTheRun : Obligations.CloseAlwaysEndsTheRun := by
  intro s hs hc hrecs
  obtain ⟨t, hrun, hend⟩ := run_ends hs hc hrecs
  exact ⟨t, hrun, hend.st, hend.srcHeld, hend.txHeld, hend.tx⟩

end Sys2Proof.Machine
end

section
/-! SUPPORT. O18: BLOCKSUM is the sum of the rectangle's pixels, and MEANQ is rounded to nearest (R104). -/

namespace Sys2Proof.Machine

open Sys2Proof.Statements

/-- BLOCKSUM adds the pixels of R50's addresses (R104). -/
theorem State.blockSum_eq_sum (s : State) (y0 x0 bh bw : Nat) :
    s.blockSum y0 x0 bh bw =
      ∑ j ∈ Finset.range bh, ∑ i ∈ Finset.range bw, (s.pixel (pixelAddr s (y0 + j) (x0 + i))).toNat := rfl

/-- `divr` is 0 exactly below half of the divisor (R13). -/
theorem divr_eq_zero_iff (a : Nat) {b : Nat} (hb : 0 < b) : divr a b = 0 ↔ 2 * a < b := by
  rw [divr, Nat.div_eq_zero_iff_lt (by omega)]
  omega

/-- `divr` of a multiple is exact (R13). -/
theorem divr_mul_left (k : Nat) {b : Nat} (hb : 0 < b) : divr (b * k) b = k := by
  have hhalf : b / (2 * b) = 0 := Nat.div_eq_of_lt (by omega)
  have hmul : 2 * (b * k) + b = b + 2 * b * k := by ring
  rw [divr, hmul, Nat.add_mul_div_left b k (by omega), hhalf, Nat.zero_add]

/-- A block sum of a frame fits 40 bits (R7, R104). -/
theorem State.blockSum_lt (s : State) (y0 x0 : Nat) {bh bw : Nat} (hh : bh ≤ 65535) (hw : bw ≤ 65535) :
    s.blockSum y0 x0 bh bw < 2 ^ 40 :=
  calc s.blockSum y0 x0 bh bw ≤ 255 * (bh * bw) := s.blockSum_le y0 x0 bh bw
    _ ≤ 255 * (65535 * 65535) := Nat.mul_le_mul_left 255 (Nat.mul_le_mul hh hw)
    _ < 2 ^ 40 := by norm_num

/-- The block sum of a white rectangle (R104). -/
theorem State.blockSum_of_white {s : State} {y0 x0 bh bw : Nat}
    (h : ∀ j < bh, ∀ i < bw, s.pixel (pixelAddr s (y0 + j) (x0 + i)) = 255) :
    s.blockSum y0 x0 bh bw = bh * bw * 255 := by
  have hpixel : ∀ j ∈ Finset.range bh, ∀ i ∈ Finset.range bw,
      (s.pixel (pixelAddr s (y0 + j) (x0 + i))).toNat = 255 := fun j hj i hi => by
    rw [h j (Finset.mem_range.1 hj) i (Finset.mem_range.1 hi)]
    rfl
  rw [s.blockSum_eq_sum, Finset.sum_congr rfl fun j hj => Finset.sum_congr rfl (hpixel j hj)]
  simp [Nat.mul_assoc]

/-- White is 65280 exactly (R104). -/
theorem State.meanQ_of_white {s : State} {y0 x0 bh bw : Nat} (hpos : 0 < bh * bw)
    (h : ∀ j < bh, ∀ i < bw, s.pixel (pixelAddr s (y0 + j) (x0 + i)) = 255) : s.meanQ y0 x0 bh bw = 65280 := by
  have hnum : 256 * (bh * bw * 255) = bh * bw * 65280 := by ring
  rw [State.meanQ, State.blockSum_of_white h, hnum, divr_mul_left 65280 hpos]

/-- Settles O18, by the rounding of `divr`. -/
theorem blockMeanIsTheNearestInteger : Obligations.BlockMeanIsTheNearestInteger := by
  intro s y0 x0 bh bw hh hw
  have hpos : 0 < bh * bw := Nat.mul_pos hh hw
  obtain ⟨hlo, hhi⟩ := divr_nearest (256 * s.blockSum y0 x0 bh bw) hpos
  have hzero := divr_eq_zero_iff (256 * s.blockSum y0 x0 bh bw) hpos
  rw [← State.meanQ] at hlo hhi hzero
  rw [Nat.mul_assoc 255, Nat.mul_assoc 2]
  refine ⟨s.blockSum_eq_sum y0 x0 bh bw, s.blockSum_le y0 x0 bh bw, s.blockSum_lt y0 x0, ?lower, ?upper,
    s.meanQ_le y0 x0 hh hw, ?zero, State.meanQ_of_white hpos⟩
  case lower => omega
  case upper => omega
  case zero => omega

end Sys2Proof.Machine
end

section
/-! SUPPORT. O19 to O22: what each SAMPLE operation returns and raises, with the geometry of R101 and
R102 written out. -/

namespace Sys2Proof.Machine

open Sys2Proof.Statements

/-! ### Degenerate blocks (R103) -/

theorem State.blockH_eq_zero_iff {s : State} (hn : 1 ≤ s.nAct.toNat) :
    s.blockH = 0 ↔ s.params.height < s.nAct.toNat := Nat.div_eq_zero_iff_lt hn

theorem State.blockW_eq_zero_iff {s : State} (hm : 1 ≤ s.mAct.toNat) :
    s.blockW = 0 ↔ s.params.width < s.mAct.toNat := Nat.div_eq_zero_iff_lt hm

theorem State.blockWDelta_eq_zero_iff {s : State} (hm : 1 ≤ s.mAct.toNat) :
    s.blockWDelta = 0 ↔ s.halfW < s.mAct.toNat := Nat.div_eq_zero_iff_lt hm

theorem degenerate_delta_iff {s : State} (hn : 1 ≤ s.nAct.toNat) (hm : 1 ≤ s.mAct.toNat) :
    degenerate .delta s = true ↔ s.params.height < s.nAct.toNat ∨ s.halfW < s.mAct.toNat := by
  rw [degenerate, decide_eq_true_eq, State.blockH_eq_zero_iff hn, State.blockWDelta_eq_zero_iff hm]

/-- ABS and SINGLE share the geometry of R101. -/
theorem degenerate_iff {m : Mode} (hd : m ≠ .delta) {s : State} (hn : 1 ≤ s.nAct.toNat) (hm : 1 ≤ s.mAct.toNat) :
    degenerate m s = true ↔ s.params.height < s.nAct.toNat ∨ s.params.width < s.mAct.toNat := by
  rw [← State.blockH_eq_zero_iff hn, ← State.blockW_eq_zero_iff hm]
  cases m with
  | delta => exact absurd rfl hd
  | _ => exact decide_eq_true_iff

/-- DEGEN is bit 4 of ERR (R37). -/
theorem raiseDegen_eq {m : Mode} {s : State} {p : Prop} [Decidable p] (h : degenerate m s = true ↔ p) :
    raiseDegen m s = { s with err := if p then s.err ||| 0x10 else s.err } := by
  by_cases hp : p
  · rw [raiseDegen_of_degenerate (h.2 hp), if_pos hp]
    rfl
  · rw [raiseDegen, if_neg (mt h.1 hp), if_neg hp]

/-! ### The TargetMatrix (R100) -/

theorem targetEntry_targetRows {n m r c : Nat} (f : Nat → Nat → Target) (hr : r < n) (hc : c < m) :
    targetEntry (targetRows n m f) r c = some (f r c) := by
  simp [targetEntry, targetRows, hr, hc]

/-- A degenerate geometry gives no cell a target (R103). -/
theorem targetOf_of_degenerate {m : Mode} {s : State} (h : degenerate m s = true) (r c : Nat) :
    targetOf m s r c = .skip := by
  cases m <;> exact if_pos (of_decide_eq_true h)

/-- tgt(r, c) of SAMPLE.ABS with R101's geometry (R103, R105). -/
theorem targetAbs_eq {s : State} (hn : 1 ≤ s.nAct.toNat) (hm : 1 ≤ s.mAct.toNat) (r c : Nat) :
    targetAbs s r c =
      if s.params.height < s.nAct.toNat ∨ s.params.width < s.mAct.toNat then .skip
      else .value (s.meanQ (r * (s.params.height / s.nAct.toNat)) (c * (s.params.width / s.mAct.toNat))
        (s.params.height / s.nAct.toNat) (s.params.width / s.mAct.toNat)) := by
  simp only [targetAbs, State.blockH_eq_zero_iff hn, State.blockW_eq_zero_iff hm]
  rfl

/-- tgt(r, c) of SAMPLE.DELTA with R102's geometry (R103, R106). -/
theorem targetDelta_eq {s : State} (hn : 1 ≤ s.nAct.toNat) (hm : 1 ≤ s.mAct.toNat) (r c : Nat) :
    targetDelta s r c =
      if s.params.height < s.nAct.toNat ∨ s.halfW < s.mAct.toNat then .skip
      else .value
        ((s.meanQ (r * (s.params.height / s.nAct.toNat)) (s.halfW + s.gap.toNat + c * (s.halfW / s.mAct.toNat))
            (s.params.height / s.nAct.toNat) (s.halfW / s.mAct.toNat) : Int)
          - (s.meanQ (r * (s.params.height / s.nAct.toNat)) (c * (s.halfW / s.mAct.toNat))
            (s.params.height / s.nAct.toNat) (s.halfW / s.mAct.toNat) : Int)) := by
  simp only [targetDelta, State.blockH_eq_zero_iff hn, State.blockWDelta_eq_zero_iff hm]
  rfl

/-! ### The operations -/

/-- Settles O19. -/
theorem sampleAbsReturnsBlockMeans : Obligations.SampleAbsReturnsBlockMeans := by
  intro s hn hm
  refine ⟨_, rfl, ?frame, fun r c hr hc => ?entry⟩
  case frame => rw [raiseDegen_eq (degenerate_iff (m := .abs) nofun hn hm)]
  case entry => rw [targetEntry_targetRows _ hr hc, targetAbs_eq hn hm]

/-- Settles O20. -/
theorem sampleDeltaReturnsDifferences : Obligations.SampleDeltaReturnsDifferences := by
  intro s hw hn hm hhw
  obtain rfl : hw = s.halfW := hhw
  refine ⟨_, rfl, ?frame, fun r c hr hc => ?entry⟩
  case frame => rw [raiseDegen_eq (degenerate_delta_iff hn hm)]
  case entry => rw [targetEntry_targetRows _ hr hc, targetDelta_eq hn hm]

/-- Settles O21, by whether the reference block is degenerate. -/
theorem sampleSingleReturnsTheReferenceBlock : Obligations.SampleSingleReturnsTheReferenceBlock := by
  intro s hn hm
  have hdegen := degenerate_iff (m := .single) nofun hn hm
  refine ⟨fun h => ?degenerate, fun hrows hcols => ?mean⟩
  case degenerate =>
    have htarget : targetSingle s = .skip := targetOf_of_degenerate (hdegen.2 h) 0 0
    rw [exec, execSampleSingle, htarget, raiseDegen_of_degenerate (hdegen.2 h)]
    rfl
  case mean =>
    have hno : ¬(s.blockH = 0 ∨ s.blockW = 0) := by
      rw [State.blockH_eq_zero_iff hn, State.blockW_eq_zero_iff hm]
      omega
    rw [exec, execSampleSingle, targetSingle, if_neg hno, raiseDegen_of_not (m := .single) (decide_eq_false hno)]
    rfl

/-! ### Equal pixels (R106, R109) -/

/-- A block mean depends on the pixels of its rectangle only, wherever the rectangle lies (R104). -/
theorem State.meanQ_congr {s s' : State} {y0 x0 y0' x0' bh bw : Nat}
    (h : ∀ j < bh, ∀ i < bw,
      s.pixel (pixelAddr s (y0 + j) (x0 + i)) = s'.pixel (pixelAddr s' (y0' + j) (x0' + i))) :
    s.meanQ y0 x0 bh bw = s'.meanQ y0' x0' bh bw := by
  have hsum : s.blockSum y0 x0 bh bw = s'.blockSum y0' x0' bh bw := by
    rw [s.blockSum_eq_sum, s'.blockSum_eq_sum]
    refine Finset.sum_congr rfl fun j hj => Finset.sum_congr rfl fun i hi => ?_
    rw [h j (Finset.mem_range.1 hj) i (Finset.mem_range.1 hi)]
  rw [State.meanQ, State.meanQ, hsum]

/-- Index `j` of block `r`, of `n` blocks of size `b`, lies below their end. -/
theorem block_index_lt {r n j b : Nat} (hr : r < n) (hj : j < b) : r * b + j < n * b :=
  calc r * b + j < r * b + b := Nat.add_lt_add_left hj _
    _ = (r + 1) * b := (Nat.succ_mul r b).symm
    _ ≤ n * b := Nat.mul_le_mul_right b hr

/-- The blocks of a grid fit the frame, or the sub-region, that they divide (R101, R102). -/
theorem block_index_lt_size {r n j size : Nat} (hr : r < n) (hj : j < size / n) : r * (size / n) + j < size :=
  (block_index_lt hr hj).trans_le (Nat.mul_div_le size n)

/-- The left and the right block of a cell hold the same pixels when the sub-regions do (R106). -/
theorem meanQ_right_eq_left {s : State} {r c : Nat} (hr : r < s.nAct.toNat) (hc : c < s.mAct.toNat)
    (h : ∀ y x, y < s.params.height → x < s.halfW →
      s.pixel (pixelAddr s y x) = s.pixel (pixelAddr s y (s.halfW + s.gap.toNat + x))) :
    s.meanQ (r * s.blockH) (s.rightX + c * s.blockWDelta) s.blockH s.blockWDelta
      = s.meanQ (r * s.blockH) (c * s.blockWDelta) s.blockH s.blockWDelta := by
  refine State.meanQ_congr fun j hj i hi => ?_
  rw [State.rightX, Nat.add_assoc]
  exact (h _ _ (block_index_lt_size hr hj) (block_index_lt_size hc hi)).symm

/-- Settles O22. -/
theorem equalSubRegionsGiveZeroTargets : Obligations.EqualSubRegionsGiveZeroTargets := by
  intro s hn hrows hm hcols hequal
  refine ⟨_, rfl, fun r c hr hc => ?_⟩
  have hno : ¬(s.blockH = 0 ∨ s.blockWDelta = 0) := by
    rw [State.blockH_eq_zero_iff hn, State.blockWDelta_eq_zero_iff hm]
    omega
  rw [targetEntry_targetRows _ hr hc, targetDelta, if_neg hno, meanQ_right_eq_left hr hc hequal, Int.sub_self]

end Sys2Proof.Machine
end

section
/-! SUPPORT. O23 and O24: which pixels the sampler reads (R109). -/

namespace Sys2Proof.Machine

open Sys2Proof.Statements

/-! ### Addresses inside the frame -/

/-- A row and a column of the frame give an address of the frame space (R50). -/
theorem pixelAddr_lt_frameSize {s : State} {y x : Nat} (hy : y < s.params.height) (hx : x < s.params.width) :
    pixelAddr s y x < s.frameSize := block_index_lt hy hx

/-- The right sub-region ends inside the frame (R102). -/
theorem rightX_add_lt_width {s : State} {x : Nat} (hx : x < s.halfW) : s.rightX + x < s.params.width := by
  unfold State.rightX
  unfold State.halfW at hx ⊢
  split at hx <;> split <;> omega

/-- Settles O23, by the row and the column of each address. -/
theorem samplerReadsInsideTheFrame : Obligations.SamplerReadsInsideTheFrame := by
  intro s r c j i hr hc hj
  have hrow : r * s.blockH + j < s.params.height := block_index_lt_size hr hj
  refine ⟨fun hi => pixelAddr_lt_frameSize hrow (block_index_lt_size hc hi), fun hi => ?_⟩
  have hcol : c * s.blockWDelta + i < s.halfW := block_index_lt_size hc hi
  have hright := rightX_add_lt_width hcol
  rw [Nat.add_assoc]
  exact ⟨pixelAddr_lt_frameSize hrow (by omega), pixelAddr_lt_frameSize hrow hright⟩

/-! ### Another frame buffer -/

/-- The pixel in row y and column x is the same when FB holds `m`. -/
def SamePixel (s : State) (m : Memory) (y x : Nat) : Prop :=
  s.pixel (pixelAddr s y x) = ({ s with fb := m } : State).pixel (pixelAddr s y x)

theorem meanQ_setFb {s : State} {m : Memory} {y0 x0 bh bw : Nat}
    (h : ∀ j < bh, ∀ i < bw, SamePixel s m (y0 + j) (x0 + i)) :
    ({ s with fb := m } : State).meanQ y0 x0 bh bw = s.meanQ y0 x0 bh bw :=
  State.meanQ_congr fun j hj i hi => (h j hj i hi).symm

/-- Whether the blocks are degenerate does not depend on FB (R103). -/
theorem raiseDegen_setFb (mode : Mode) (s : State) (m : Memory) :
    raiseDegen mode { s with fb := m } = { raiseDegen mode s with fb := m } := by
  have hd : degenerate mode { s with fb := m } = degenerate mode s := rfl
  unfold raiseDegen
  rw [hd]
  split <;> rfl

theorem targetRows_congr {n m : Nat} {f g : Nat → Nat → Target} (h : ∀ r < n, ∀ c < m, f r c = g r c) :
    targetRows n m f = targetRows n m g :=
  List.map_congr_left fun r hr => List.map_congr_left fun c hc => h r (List.mem_range.1 hr) c (List.mem_range.1 hc)

@[simp] theorem State.blockH_setFb (s : State) (m : Memory) : ({ s with fb := m } : State).blockH = s.blockH := rfl
@[simp] theorem State.blockW_setFb (s : State) (m : Memory) : ({ s with fb := m } : State).blockW = s.blockW := rfl
@[simp] theorem State.blockWDelta_setFb (s : State) (m : Memory) :
    ({ s with fb := m } : State).blockWDelta = s.blockWDelta := rfl
@[simp] theorem State.rightX_setFb (s : State) (m : Memory) : ({ s with fb := m } : State).rightX = s.rightX := rfl

/-! ### The targets of another frame buffer with the same blocks -/

theorem targetAbs_setFb {s : State} {m : Memory} {r c : Nat} (hr : r < s.nAct.toNat) (hc : c < s.mAct.toNat)
    (h : ∀ y x, y < s.nAct.toNat * s.blockH → x < s.mAct.toNat * s.blockW → SamePixel s m y x) :
    targetAbs { s with fb := m } r c = targetAbs s r c := by
  have hmean : ({ s with fb := m } : State).meanQ (r * s.blockH) (c * s.blockW) s.blockH s.blockW
      = s.meanQ (r * s.blockH) (c * s.blockW) s.blockH s.blockW :=
    meanQ_setFb fun j hj i hi => h _ _ (block_index_lt hr hj) (block_index_lt hc hi)
  rw [targetAbs, State.blockH_setFb, State.blockW_setFb, hmean, targetAbs]

theorem targetSingle_setFb {s : State} {m : Memory}
    (h : ∀ y x, y < s.blockH → x < s.blockW → SamePixel s m y x) :
    targetSingle { s with fb := m } = targetSingle s := by
  have hmean : ({ s with fb := m } : State).meanQ 0 0 s.blockH s.blockW = s.meanQ 0 0 s.blockH s.blockW :=
    meanQ_setFb fun j hj i hi => h _ _ (by rwa [Nat.zero_add]) (by rwa [Nat.zero_add])
  rw [targetSingle, State.blockH_setFb, State.blockW_setFb, hmean, targetSingle]

/-- Both blocks of a cell lie in the columns that R102 gives the sub-regions' blocks. -/
theorem targetDelta_setFb {s : State} {m : Memory} {r c : Nat} (hr : r < s.nAct.toNat) (hc : c < s.mAct.toNat)
    (h : ∀ y x, y < s.nAct.toNat * s.blockH →
      x < s.mAct.toNat * s.blockWDelta ∨ (s.rightX ≤ x ∧ x < s.rightX + s.mAct.toNat * s.blockWDelta) →
      SamePixel s m y x) :
    targetDelta { s with fb := m } r c = targetDelta s r c := by
  have hleft : ({ s with fb := m } : State).meanQ (r * s.blockH) (c * s.blockWDelta) s.blockH s.blockWDelta
      = s.meanQ (r * s.blockH) (c * s.blockWDelta) s.blockH s.blockWDelta :=
    meanQ_setFb fun j hj i hi => h _ _ (block_index_lt hr hj) (.inl (block_index_lt hc hi))
  have hright : ({ s with fb := m } : State).meanQ (r * s.blockH) (s.rightX + c * s.blockWDelta) s.blockH
      s.blockWDelta = s.meanQ (r * s.blockH) (s.rightX + c * s.blockWDelta) s.blockH s.blockWDelta :=
    meanQ_setFb fun j hj i hi => by
      have hcol := block_index_lt hc hi
      exact h _ _ (block_index_lt hr hj) (.inr (by omega))
  rw [targetDelta, State.blockH_setFb, State.blockWDelta_setFb, State.rightX_setFb, hleft, hright, targetDelta]

/-- Settles O24, by the targets of each operation. -/
theorem pixelsOutsideBlocksHaveNoEffect : Obligations.PixelsOutsideBlocksHaveNoEffect := by
  intro s m
  refine ⟨fun h => ⟨_, rfl, ?abs⟩, fun h => ⟨_, rfl, ?single⟩, fun h => ⟨_, rfl, ?delta⟩⟩
  case abs =>
    have htargets := targetRows_congr fun r hr c hc => targetAbs_setFb (s := s) (m := m) hr hc h
    rw [exec, execSampleAbs, raiseDegen_setFb, htargets]
  case single => rw [exec, execSampleSingle, raiseDegen_setFb, targetSingle_setFb h]
  case delta =>
    have htargets := targetRows_congr fun r hr c hc => targetDelta_setFb (s := s) (m := m) hr hc h
    rw [exec, execSampleDelta, raiseDegen_setFb, htargets]

end Sys2Proof.Machine
end

section
/-! SUPPORT. O42: a full tick whose blocks are degenerate. Every target is skip, so the control phase changes nothing,
and the lines carry the smoothed outputs as they were. -/

namespace Sys2Proof.Machine

open Sys2Proof.Statements

/-! ### The lines of a tick (R143, R145) -/

/-- The byte that a tick sends for a cell (R145). -/
def sentByte (s : State) (r c : Nat) : Byte := BitVec.ofInt 8 (encOf s.modeAct (s.smQ r c))

/-- Every emitted value fits its byte (R147). -/
theorem toNat_sentByte (s : State) (r c : Nat) : (sentByte s r c).toNat = (encOf s.modeAct (s.smQ r c)).toNat := by
  obtain ⟨hlo, hhi⟩ := encOf_mem s.modeAct (s.smQ r c)
  rw [sentByte, BitVec.toNat_ofInt]
  omega

/-- The control region has at most 255 rows and columns, so a cell's indices fit the bytes of its line (R23, R95). -/
theorem State.region_lt (s : State) : s.nc < 256 ∧ s.mc < 256 := by
  have hn := s.nAct.isLt
  have hm := s.mAct.isLt
  by_cases h : s.modeAct = .single
  · obtain ⟨hnc, hmc⟩ := State.nc_single h
    omega
  · obtain ⟨hnc, hmc⟩ := State.nc_grid h
    omega

theorem cellLine_eq {s : State} {r c : Nat} (hr : r < s.nc) (hc : c < s.mc) :
    cellLine s r c = encode (.ledcmd (byteOf r) (byteOf c) (sentByte s r c)) := by
  obtain ⟨hnc, hmc⟩ := s.region_lt
  rw [encode, toNat_byteOf (by omega), toNat_byteOf (by omega), toNat_sentByte, cellLine]

/-- A tick sends one line per cell of the control region, row-major (R143). -/
theorem tickLines_eq (s : State) : tickLines s = regionLines s.nc s.mc (sentByte s) := by
  rw [tickLines, State.region, cellOrder, List.flatMap_assoc]
  refine List.flatMap_congr fun r hr => ?_
  rw [List.flatMap_map]
  exact List.flatMap_congr fun c hc => cellLine_eq (List.mem_range.1 hr) (List.mem_range.1 hc)

/-- On values of the cells' range the clamps of the encoder do not act, and the byte is the nearest (R141, R142). -/
theorem isSentFor_sentByte {s : State} (hs : s.CellsInRange) (r c : Nat) :
    IsSentFor s.modeAct (s.smQ r c) (sentByte s r c) := by
  obtain ⟨-, -, hlo, hhi⟩ := hs r c
  have hv := toNat_sentByte s r c
  obtain ⟨hpos, -⟩ := encOf_mem s.modeAct (s.smQ r c)
  refine ⟨fun hm => ?delta, fun hm => ?absolute⟩
  case delta =>
    rw [hm] at hlo hv hpos
    rw [encOf, encDeltaOf_eq hlo hhi] at hv hpos
    omega
  case absolute =>
    have habs : rangeLo s.modeAct = 0 ∧ encOf s.modeAct (s.smQ r c) = encAbsOf (s.smQ r c) := by
      cases hmode : s.modeAct with
      | delta => exact absurd hmode hm
      | _ => exact ⟨rfl, rfl⟩
    obtain ⟨hzero, henc⟩ := habs
    rw [hzero] at hlo
    rw [henc, encAbsOf_eq hlo hhi] at hv hpos
    omega

/-! ### A tick without targets (R103, R130) -/

theorem blocksDegenerate_iff {s : State} (hn : 1 ≤ s.nAct.toNat) (hm : 1 ≤ s.mAct.toNat) :
    BlocksDegenerate s ↔ degenerate s.modeAct s = true := by
  unfold BlocksDegenerate
  by_cases hd : s.modeAct = .delta
  · rw [hd, degenerate_delta_iff hn hm]
    simp [State.halfW]
  · rw [degenerate_iff hd hn hm]
    simp [hd]

/-- CTRL with skip for every cell changes nothing (R130). -/
theorem controlPhase_of_skip (s : State) {tgt : Nat → Nat → Target} (h : ∀ r c, tgt r c = .skip) :
    controlPhase s tgt = s := by
  have hcells : s.region.foldl (fun cs rc => ctrlCell s rc.1 rc.2 (tgt rc.1 rc.2) cs) s.cells = s.cells :=
    List.foldl_fixed' (fun rc => by rw [h]; rfl) _
  rw [controlPhase, hcells]

/-- With degenerate blocks a full tick latches, raises DEGEN and sends every line of the latched state (R103, R166). -/
theorem fullTick_of_degenerate {s : State} (h : degenerate s.modeAct (latchConfig s) = true) :
    fullTick s = { emitBytes (tickLines (latchConfig s)) (raise .degen (latchConfig s)) with
      frameValid := false, busy := false } := by
  have hsampled : sampled s = { raise .degen (latchConfig s) with busy := true } := by
    rw [sampled, latchConfig_setBusy, raiseDegen_setBusy, raiseDegen_of_degenerate h]
  have hskip : ∀ r c, targetOf s.modeAct (sampled s) r c = .skip :=
    targetOf_of_degenerate (by rw [hsampled]; exact h)
  rw [fullTick_eq, controlPhase_of_skip _ hskip, hsampled, emitPhase_eq]
  rfl

/-- An invalid and an unchanged request leave the cells as they are (R165). -/
theorem latchConfig_cells_of_kept {s : State} (h : s.gridValid = false ∨ GridUnchanged s) :
    (latchConfig s).cells = s.cells := by
  obtain ⟨-, e⟩ | ⟨-, -, -, e⟩ | ⟨hvalid, hchanged, -⟩ := latchConfig_cases s
  · rw [e, raise_cells]
  · rw [e]
  · obtain hinvalid | ⟨-, hn, hm⟩ := h
    · exact absurd (hinvalid.symm.trans hvalid) Bool.false_ne_true
    · exact absurd ⟨hn, hm⟩ hchanged

/-- Settles O42, by what a tick without targets does. -/
theorem degenerateTickHoldsEveryCell : Obligations.DegenerateTickHoldsEveryCell := by
  intro s s₁ hs hrun hlatch hdegen
  obtain rfl : latchConfig s = s₁ := Host.Outcome.next.inj hlatch
  have hs₁ : Safe (latchConfig s) := hs.latchConfig
  have hst : s.st = .running := hrun.1
  have hrange : (latchConfig s).CellsInRange := hs₁.range (hs₁.specified (by simp [hst]))
  rw [blocksDegenerate_iff hs₁.rows.1 hs₁.columns.1, latchConfig_modeAct] at hdegen
  have htick := fullTick_of_degenerate hdegen
  have hcells : (fullTick s).cells = (latchConfig s).cells := by rw [htick]; rfl
  refine ⟨fullTick s, sentByte (latchConfig s), congrArg _ (tickBlock_of_tickRuns hrun), ?flag, fun r c => ?held,
    ?lines, fun r c _ _ => ?sent, fun hkept r c => ?kept⟩
  case flag =>
    obtain ⟨fails, hflags⟩ := hasErr_fullTick s
    simp [hflags, hdegen]
  case held => simp only [State.curQ, State.smQ, hcells, and_self]
  case lines => rw [htick, ← tickLines_eq, emitBytes_tx, raise_tx, latchConfig_tx]
  case sent => simpa using isSentFor_sentByte hrange r c
  case kept => simp only [State.curQ, State.smQ, hcells, latchConfig_cells_of_kept hkept, and_self]

end Sys2Proof.Machine
end

section
/-! SUPPORT. O30 and O31: the gamma lookup. It is a rounded weighted mean of two table entries, so what holds of
rounded means holds of it. -/

namespace Sys2Proof.Machine

/-! ### Rounded means (R12) -/

/-- Rounding to nearest keeps integer bounds. -/
theorem rshr_mem {x lo hi : Int} {k : Nat} (hk : 1 ≤ k) (hlo : lo * 2 ^ k ≤ x) (hhi : x ≤ hi * 2 ^ k) :
    lo ≤ rshr x k ∧ rshr x k ≤ hi := by
  have hpos : (0 : Int) < 2 ^ k := by positivity
  obtain ⟨habove, hbelow⟩ := rshr_nearest x hk
  have hlt : lo < rshr x k + 1 := lt_of_mul_lt_mul_right (by linarith) hpos.le
  have hgt : rshr x k < hi + 1 := lt_of_mul_lt_mul_right (by linarith) hpos.le
  omega

/-- Rounding moves with whole multiples of the divisor. -/
theorem rshr_mul_add (a x : Int) (k : Nat) : rshr (a * 2 ^ k + x) k = a + rshr x k := by
  rw [rshr, rshr, add_assoc, Int.add_comm, Int.add_mul_ediv_right _ _ (by positivity), Int.add_comm]

/-- A mean with weights `w` and `W - w` lies between any bounds of its two values. -/
theorem weightedSum_mem {w W a b lo hi : Int} (hw : 0 ≤ w) (hW : w ≤ W) (ha : lo ≤ a ∧ a ≤ hi)
    (hb : lo ≤ b ∧ b ≤ hi) : lo * W ≤ w * a + (W - w) * b ∧ w * a + (W - w) * b ≤ hi * W := by
  have hrest : 0 ≤ W - w := by omega
  constructor
  · calc lo * W = w * lo + (W - w) * lo := by ring
      _ ≤ w * a + (W - w) * b :=
        Int.add_le_add (Int.mul_le_mul_of_nonneg_left ha.1 hw) (Int.mul_le_mul_of_nonneg_left hb.1 hrest)
  · calc w * a + (W - w) * b ≤ w * hi + (W - w) * hi :=
        Int.add_le_add (Int.mul_le_mul_of_nonneg_left ha.2 hw) (Int.mul_le_mul_of_nonneg_left hb.2 hrest)
      _ = hi * W := by ring

/-! ### The lookup (R126) -/

theorem glutAt_mem (g : Vector Half 256) (i : Nat) : 0 ≤ glutAt g i ∧ glutAt g i ≤ 65535 := by
  unfold glutAt
  split
  · rename_i h
    have := (g[i]'h).isLt
    omega
  · omega

/-- Between two levels the lookup adds the rounded part of their difference (R126). -/
theorem gam_fraction (g : Vector Half 256) {i f : Nat} (hi : i ≤ 254) (hf : f ≤ 255) :
    gam g (256 * i + f) = glutAt g i + rshr ((glutAt g (i + 1) - glutAt g i) * f) 8 := by
  have hlevel : (256 * i + f) / 256 % 256 = i := by omega
  have hfrac : (256 * i + f) % 256 = f := by omega
  rw [gam, hlevel, hfrac, if_neg (by omega)]

/-- At a level the lookup gives its entry (R126). -/
theorem gam_level (g : Vector Half 256) {i : Nat} (hi : i ≤ 255) : gam g (256 * i) = glutAt g i := by
  obtain rfl | hlt : i = 255 ∨ i ≤ 254 := by omega
  · rfl
  · have h := gam_fraction g hlt (Nat.zero_le 255)
    simpa [rshr] using h

/-- Between two levels the lookup stays within any bounds of the two entries (R126). -/
theorem gam_fraction_mem {g : Vector Half 256} {i f : Nat} {lo hi : Int} (hlevel : i ≤ 254) (hf : f ≤ 255)
    (h₀ : lo ≤ glutAt g i ∧ glutAt g i ≤ hi) (h₁ : lo ≤ glutAt g (i + 1) ∧ glutAt g (i + 1) ≤ hi) :
    lo ≤ gam g (256 * i + f) ∧ gam g (256 * i + f) ≤ hi := by
  obtain ⟨hlo, hhi⟩ := weightedSum_mem (w := f) (W := 2 ^ 8) (by omega) (by omega) h₁ h₀
  have hmean : gam g (256 * i + f) = rshr (f * glutAt g (i + 1) + (2 ^ 8 - f) * glutAt g i) 8 := by
    rw [gam_fraction g hlevel hf, ← rshr_mul_add]
    congr 1
    ring
  rw [hmean]
  exact rshr_mem (by omega) hlo hhi

/-- On its operand range the lookup stays within any bound of the table (R126). -/
theorem gam_mem {g : Vector Half 256} {hi : Int} (hg : ∀ i ≤ 255, glutAt g i ≤ hi) {a : Nat} (ha : a ≤ 65280) :
    0 ≤ gam g a ∧ gam g a ≤ hi := by
  have entry : ∀ i ≤ 255, 0 ≤ glutAt g i ∧ glutAt g i ≤ hi := fun i hlevel => ⟨(glutAt_mem g i).1, hg i hlevel⟩
  obtain rfl | hlt : a = 256 * 255 ∨ a < 65280 := by omega
  · rw [gam_level g le_rfl]
    exact entry 255 le_rfl
  · rw [← Nat.div_add_mod a 256]
    exact gam_fraction_mem (by omega) (by omega) (entry _ (by omega)) (entry _ (by omega))

/-- Settles O30. -/
theorem gammaLookupInterpolates : Obligations.GammaLookupInterpolates := by
  intro g
  refine ⟨fun i hi => gam_level g hi, fun i f hi hf => ⟨gam_fraction g hi hf, ?between⟩, fun a ha => ?range⟩
  case between =>
    exact gam_fraction_mem hi hf ⟨min_le_left _ _, le_max_left _ _⟩ ⟨min_le_right _ _, le_max_right _ _⟩
  case range =>
    obtain ⟨hpos, hword⟩ := gam_mem (fun i _ => (glutAt_mem g i).2) ha
    exact ⟨hpos, hword, fun hg => (gam_mem hg ha).2⟩

/-! ### The sign put back (R127) -/

theorem sgam_of_nonneg (g : Vector Half 256) {x : Int} (h : 0 ≤ x) : sgam g x = gam g x.toNat := if_pos h

theorem sgam_of_neg (g : Vector Half 256) {x : Int} (h : x < 0) : sgam g x = -gam g (-x).toNat :=
  if_neg (by omega)

theorem sgam_zero (g : Vector Half 256) : sgam g 0 = glutAt g 0 :=
  (sgam_of_nonneg g le_rfl).trans (gam_level g (Nat.zero_le 255))

theorem sgam_neg (g : Vector Half 256) {x : Int} (h : x ≠ 0) : sgam g (-x) = -sgam g x := by
  obtain hneg | hpos : x < 0 ∨ 0 < x := by omega
  · rw [sgam_of_nonneg g (by omega), sgam_of_neg g hneg, Int.neg_neg]
  · rw [sgam_of_neg g (by omega), sgam_of_nonneg g hpos.le, Int.neg_neg]

/-- Settles O31. -/
theorem gammaIsSignPreserving : Obligations.GammaIsSignPreserving :=
  fun g _ => ⟨sgam_of_nonneg g, sgam_neg g, sgam_zero g⟩

/-- On a configured range the sign-preserving lookup is bounded as the table is, and it leaves 0 only to the side its
argument lies on (R122, R127). -/
theorem sgam_mem {g : Vector Half 256} {hi : Int} (hg : ∀ i ≤ 255, glutAt g i ≤ hi) {x : Int} (hx : |x| ≤ 65280) :
    |sgam g x| ≤ hi ∧ (0 ≤ x → 0 ≤ sgam g x) := by
  obtain ⟨hlo, hhi⟩ := abs_le.1 hx
  obtain hneg | hpos : x < 0 ∨ 0 ≤ x := by omega
  · obtain ⟨h₀, h₁⟩ := gam_mem hg (a := (-x).toNat) (by omega)
    rw [sgam_of_neg g hneg, abs_neg, abs_of_nonneg h₀]
    exact ⟨h₁, fun h => by omega⟩
  · obtain ⟨h₀, h₁⟩ := gam_mem hg (a := x.toNat) (by omega)
    rw [sgam_of_nonneg g hpos, abs_of_nonneg h₀]
    exact ⟨h₁, fun _ => h₀⟩

end Sys2Proof.Machine
end

section
/-! SUPPORT. O32: the widths of the five steps of CTRL (R136). -/

namespace Sys2Proof.Machine

theorem gatedError_eq (noise : Nat) (t sm : Int) :
    gatedError noise t sm = if |t - sm| < noise then 0 else t - sm := by
  simp only [gatedError, Int.abs_eq_natAbs, Nat.cast_lt]

/-- The noise gate makes no error larger (R124). -/
theorem abs_gatedError_le (noise : Nat) (t sm : Int) : |gatedError noise t sm| ≤ |t - sm| := by
  unfold gatedError
  split
  · exact abs_nonneg _
  · exact le_rfl

/-- The sum that step 5 rounds, with the weights SMOOTH and 65536 - SMOOTH, stays within the bounds of SM and of the
corrected value (R128). -/
theorem smoothed_mem (s : State) {sm cor lo hi : Int} (hsm : lo ≤ sm ∧ sm ≤ hi) (hcor : lo ≤ cor ∧ cor ≤ hi) :
    lo * 2 ^ 16 ≤ s.smooth.toNat * sm + (65536 - s.smooth.toNat) * cor ∧
    s.smooth.toNat * sm + (65536 - s.smooth.toNat) * cor ≤ hi * 2 ^ 16 := by
  have hw := s.smooth.isLt
  exact weightedSum_mem (by omega) (by omega) hsm hcor

/-- A configured range lies in -65280..65280 (R122). -/
theorem abs_le_of_rangeLo_le {m : Mode} {x : Int} (hlo : rangeLo m ≤ x) (hhi : x ≤ 65280) : |x| ≤ 65280 := by
  rw [abs_le]
  rcases rangeLo_cases m with h | h <;> omega

/-- Settles O32, by the bound of the error and that of a weighted mean. -/
theorem controlArithmeticFitsItsWidths : Obligations.ControlArithmeticFitsItsWidths := by
  intro s r c q hs hqlo hqhi
  obtain ⟨hcurlo, hcurhi, hsmlo, hsmhi⟩ := hs r c
  have hq := abs_le.1 (abs_le_of_rangeLo_le hqlo hqhi)
  have hcur := abs_le.1 (abs_le_of_rangeLo_le hcurlo hcurhi)
  have hsm := abs_le.1 (abs_le_of_rangeLo_le hsmlo hsmhi)
  have herror : |q - s.smQ r c| ≤ 130560 := by rw [abs_le]; omega
  have hproduct : |(s.kp.toNat : Int) * gatedError s.noise.toNat q (s.smQ r c)| ≤ 8556249600 := by
    have hkp : (s.kp.toNat : Int) ≤ 65535 := by have := s.kp.isLt; omega
    calc |(s.kp.toNat : Int) * gatedError s.noise.toNat q (s.smQ r c)|
        = s.kp.toNat * |gatedError s.noise.toNat q (s.smQ r c)| := by rw [abs_mul, Nat.abs_cast]
      _ ≤ 65535 * 130560 :=
        Int.mul_le_mul hkp ((abs_gatedError_le _ _ _).trans herror) (abs_nonneg _) (by norm_num)
  have hstep : |rshr (s.kp.toNat * gatedError s.noise.toNat q (s.smQ r c)) 16| ≤ 130558 := by
    rw [rshr_sixteen]
    rw [abs_le] at hproduct ⊢
    omega
  refine ⟨herror, hproduct, hstep, ?accumulator, fun i f _ hf => ?gamma, fun x hlo hhi => ?smoother⟩
  case accumulator =>
    rw [abs_le] at hstep ⊢
    omega
  case gamma =>
    have h₀ := glutAt_mem s.glut i
    have h₁ := glutAt_mem s.glut (i + 1)
    rw [abs_mul, Nat.abs_cast]
    exact Int.mul_le_mul (abs_le.2 (by omega)) (by omega) (by omega) (by norm_num)
  case smoother =>
    obtain ⟨hcor, -⟩ := sgam_mem (fun i _ => (glutAt_mem s.glut i).2) (abs_le_of_rangeLo_le hlo hhi)
    have hmean := smoothed_mem s (sm := s.smQ r c) (lo := -65535) (hi := 65535) (by omega) (abs_le.1 hcor)
    rw [abs_le]
    omega

end Sys2Proof.Machine
end

section
/-! SUPPORT. O25, O27, O28 and O29: what CTRL does, as an operation of its own, to its cell and to every other one. -/

namespace Sys2Proof.Machine

/-- The cell arrays after CTRL with the configuration of `s`: one cell written if it lies in the control region (R129;
log 12). -/
def regionCtrl (s : State) (r c : Nat) (t : Target) (cs : Cells) : Cells :=
  if s.inRegion r c then ctrlCell s r c t cs else cs

/-- CTRL writes the cell arrays only, and its configuration is no part of them (R121, R129). -/
theorem exec_ctrl (s : State) (cs : Cells) (r c : Byte) (t : Target) :
    exec (.ctrl r c t) { s with cells := cs } = .next { s with cells := regionCtrl s r.toNat c.toNat t cs } := by
  have hregion : ({ s with cells := cs } : State).inRegion r.toNat c.toNat = s.inRegion r.toNat c.toNat := rfl
  rw [exec, execCtrl, hregion, regionCtrl]
  split
  · cases t <;> rfl
  · rfl

/-- Two contents of the cell arrays agree on one cell. -/
def SameCell (cs cs' : Cells) (r c : Nat) : Prop := cs.curAt r c = cs'.curAt r c ∧ cs.smAt r c = cs'.smAt r c

theorem SameCell.symm {cs cs' : Cells} {r c : Nat} (h : SameCell cs cs' r c) : SameCell cs' cs r c :=
  ⟨h.1.symm, h.2.symm⟩

theorem SameCell.trans {cs cs' cs'' : Cells} {r c : Nat} (h : SameCell cs cs' r c) (h' : SameCell cs' cs'' r c) :
    SameCell cs cs'' r c :=
  ⟨h.1.trans h'.1, h.2.trans h'.2⟩

/-- CTRL writes its own cell only (R121). -/
theorem regionCtrl_other (s : State) {r c r' c' : Nat} (h : (r', c') ≠ (r, c)) (t : Target) (cs : Cells) :
    SameCell (regionCtrl s r c t cs) cs r' c' := by
  unfold regionCtrl
  split
  · exact ctrlCell_other s h t cs
  · exact ⟨rfl, rfl⟩

/-- What CTRL leaves in its cell depends on that cell only (R121). -/
theorem regionCtrl_local (s : State) {r c : Nat} (t : Target) {cs cs' : Cells} (h : SameCell cs cs' r c) :
    SameCell (regionCtrl s r c t cs) (regionCtrl s r c t cs') r c := by
  unfold regionCtrl
  split
  · exact ctrlCell_local s r c t h.1 h.2
  · exact h

/-! ### The five steps (R125, R128, R129) -/

theorem clamp_eq_max_min (x : Int) {lo hi : Int} (h : lo ≤ hi) : clamp x lo hi = max lo (min hi x) := by
  unfold clamp
  split
  · omega
  · split <;> omega

theorem rangeLo_le_qOne (m : Mode) : rangeLo m ≤ qOne := (zero_mem_range m).1.trans (zero_mem_range m).2

theorem nextCur_eq (kp : Nat) (m : Mode) (cur err : Int) :
    nextCur kp (rangeLo m) cur err = max (rangeLo m) (min 65280 (cur + (kp * err + 32768) / 65536)) :=
  clamp_eq_max_min _ (rangeLo_le_qOne m)

theorem nextSm_eq (smooth : Nat) (m : Mode) (sm cor : Int) :
    nextSm smooth (rangeLo m) sm cor =
      max (rangeLo m) (min 65280 ((smooth * sm + (65536 - smooth) * cor + 32768) / 65536)) :=
  clamp_eq_max_min _ (rangeLo_le_qOne m)

/-- CTRL on a cell of the region, with a target: its state is the old one but for the cells, and the cell holds the
values of the five steps (R129). -/
theorem exec_ctrl_value {s : State} {r c : Byte} (h : s.inRegion r.toNat c.toNat = true) (q : Int) :
    ∃ t, exec (.ctrl r c (.value q)) s = .next t ∧ t = { s with cells := t.cells } ∧
      t.curQ r.toNat c.toNat = (ctrlUpdate s q (s.curQ r.toNat c.toNat) (s.smQ r.toNat c.toNat)).1 ∧
      t.smQ r.toNat c.toNat = (ctrlUpdate s q (s.curQ r.toNat c.toNat) (s.smQ r.toNat c.toNat)).2 ∧
      ∀ r' c', (r', c') ≠ (r.toNat, c.toNat) → SameCell t.cells s.cells r' c' := by
  obtain ⟨hcur, hsm⟩ := ctrlCell_value s r.toNat c.toNat q s.cells
  refine ⟨_, exec_ctrl s s.cells r c (.value q), rfl, ?cur, ?sm, fun r' c' hne => regionCtrl_other s hne _ _⟩
  case cur => rwa [regionCtrl, if_pos h]
  case sm => rwa [regionCtrl, if_pos h]

/-- Settles O25. -/
theorem ctrlWritesItsCellByTheFiveSteps : Obligations.CtrlWritesItsCellByTheFiveSteps := by
  intro s r c hin
  refine ⟨?skip, fun q err cur herr hcur => ?value⟩
  case skip =>
    rw [exec, execCtrl, if_pos hin]
    rfl
  case value =>
    obtain ⟨t, hexec, hframe, hcur', hsm', hother⟩ := exec_ctrl_value hin q
    rw [← gatedError_eq] at herr
    rw [← nextCur_eq, herr] at hcur
    refine ⟨t, hexec, hframe, hcur'.trans hcur.symm, ?_, fun r' c' hne => ?_⟩
    · rw [hsm', ctrlUpdate, ← hcur, nextSm_eq]
    · obtain ⟨hsameCur, hsameSm⟩ := hother r' c' hne
      exact ⟨congrArg BitVec.toInt hsameCur, congrArg BitVec.toInt hsameSm⟩

/-! ### The range invariant (R131) -/

theorem State.CellsInRange.regionCtrl {s : State} (h : s.CellsInRange) (r c : Nat) (t : Target) :
    ({ s with cells := regionCtrl s r c t s.cells } : State).CellsInRange := by
  intro r' c'
  by_cases he : (r', c') = (r, c)
  · obtain ⟨rfl, rfl⟩ := Prod.mk.inj he
    obtain ⟨⟨hcurlo, hcurhi⟩, hsmlo, hsmhi⟩ := ctrlCell_range s r' c' t h
    unfold Machine.regionCtrl
    split
    · exact ⟨hcurlo, hcurhi, hsmlo, hsmhi⟩
    · exact h r' c'
  · obtain ⟨hcur, hsm⟩ := regionCtrl_other s he t s.cells
    simp only [State.curQ, State.smQ, hcur, hsm]
    exact h r' c'

/-- Settles O27: the cell CTRL names is clamped, and every other one is as it was. -/
theorem ctrlKeepsCellsInRange : Obligations.CtrlKeepsCellsInRange := by
  intro s t r c tgt hs h
  obtain rfl := Host.Outcome.next.inj ((exec_ctrl s s.cells r c tgt).symm.trans h)
  exact hs.regionCtrl _ _ _

/-! ### The order of two cells (R121) -/

/-- A CTRL of another cell, before or after, makes no difference to what CTRL leaves in its own. -/
theorem regionCtrl_comm_self (s : State) {r c r' c' : Nat} (h : (r, c) ≠ (r', c')) (t t' : Target) (cs : Cells) :
    SameCell (regionCtrl s r' c' t' (regionCtrl s r c t cs)) (regionCtrl s r c t (regionCtrl s r' c' t' cs)) r c :=
  (regionCtrl_other s h t' _).trans (regionCtrl_local s t (regionCtrl_other s h t' cs)).symm

theorem regionCtrl_comm (s : State) {r c r' c' : Nat} (h : (r, c) ≠ (r', c')) (t t' : Target) (cs : Cells)
    (i j : Nat) :
    SameCell (regionCtrl s r' c' t' (regionCtrl s r c t cs)) (regionCtrl s r c t (regionCtrl s r' c' t' cs)) i j := by
  by_cases h₁ : (i, j) = (r, c)
  · obtain ⟨rfl, rfl⟩ := Prod.mk.inj h₁
    exact regionCtrl_comm_self s h t t' cs
  · by_cases h₂ : (i, j) = (r', c')
    · obtain ⟨rfl, rfl⟩ := Prod.mk.inj h₂
      exact (regionCtrl_comm_self s h.symm t' t cs).symm
    · have hleft := (regionCtrl_other s h₂ t' (regionCtrl s r c t cs)).trans (regionCtrl_other s h₁ t cs)
      have hright := (regionCtrl_other s h₁ t (regionCtrl s r' c' t' cs)).trans (regionCtrl_other s h₂ t' cs)
      exact hleft.trans hright.symm

/-- Settles O28, cell by cell. -/
theorem ctrlOfTwoCellsCommutes : Obligations.CtrlOfTwoCellsCommutes := by
  intro s r c r' c' q q' hne
  have hcells : (r.toNat, c.toNat) ≠ (r'.toNat, c'.toNat) := by
    simpa [BitVec.toNat_inj] using hne
  refine ⟨_, _, _, _, exec_ctrl s s.cells r c q, exec_ctrl s _ r' c' q', exec_ctrl s s.cells r' c' q',
    exec_ctrl s _ r c q, fun i j => ?_, rfl⟩
  obtain ⟨hcur, hsm⟩ := regionCtrl_comm s hcells q q' s.cells i j
  exact ⟨congrArg BitVec.toInt hcur, congrArg BitVec.toInt hsm⟩

/-! ### The dead band (R132) -/

/-- Without an error the accumulator does not move (R125). -/
theorem nextCur_zero (kp : Nat) {lo cur : Int} (hlo : lo ≤ cur) (hhi : cur ≤ qOne) : nextCur kp lo cur 0 = cur := by
  have hstep : rshr (kp * 0) 16 = 0 := by rw [mul_zero]; rfl
  rw [nextCur, hstep, add_zero, clamp_of_mem hlo hhi]

/-- Without an error CTRL only smooths (R132). -/
theorem ctrlUpdate_of_no_error {s : State} {t cur sm : Int} (herr : gatedError s.noise.toNat t sm = 0)
    (hlo : rangeLo s.modeAct ≤ cur) (hhi : cur ≤ qOne) :
    ctrlUpdate s t cur sm = (cur, nextSm s.smooth.toNat (rangeLo s.modeAct) sm (sgam s.glut cur)) := by
  rw [ctrlUpdate, herr, nextCur_zero _ hlo hhi]

/-- The smoother moves SM by the rounded part of its distance to the corrected value (R128). -/
theorem rshr_smoothed (smooth : Nat) (sm cor : Int) :
    rshr (smooth * sm + (65536 - smooth) * cor) 16 = sm + rshr ((65536 - smooth) * (cor - sm)) 16 := by
  rw [← rshr_mul_add]
  congr 1
  ring

theorem rshr_sixteen_eq_zero_iff (x : Int) : rshr x 16 = 0 ↔ -32768 ≤ x ∧ x < 32768 := by
  rw [rshr_sixteen]
  omega

/-- With SM and the corrected value in range the output clamp never acts (R128). -/
theorem nextSm_of_mem (s : State) {lo sm cor : Int} (hsm : lo ≤ sm ∧ sm ≤ qOne) (hcor : lo ≤ cor ∧ cor ≤ qOne) :
    nextSm s.smooth.toNat lo sm cor = sm + rshr ((65536 - s.smooth.toNat) * (cor - sm)) 16 := by
  obtain ⟨hlo, hhi⟩ := smoothed_mem s hsm hcor
  obtain ⟨hlo', hhi'⟩ := rshr_mem (by omega) hlo hhi
  rw [nextSm, clamp_of_mem hlo' hhi', rshr_smoothed]

/-- A table of q-values takes the configured range to itself (R122, R127). -/
theorem sgam_mem_range {g : Vector Half 256} (hg : ∀ i ≤ 255, glutAt g i ≤ 65280) {m : Mode} {x : Int}
    (hlo : rangeLo m ≤ x) (hhi : x ≤ qOne) : rangeLo m ≤ sgam g x ∧ sgam g x ≤ qOne := by
  obtain ⟨habs, hsign⟩ := sgam_mem hg (abs_le_of_rangeLo_le hlo hhi)
  rw [abs_le] at habs
  rcases rangeLo_cases m with h | h
  · exact ⟨h ▸ hsign (h ▸ hlo), habs.2⟩
  · exact ⟨h ▸ habs.1, habs.2⟩

/-- Settles O29, by what the rounded step of the smoother is. -/
theorem deadBandHoldsCurAndSettledSm : Obligations.DeadBandHoldsCurAndSettledSm := by
  intro s r c q hin hs hg hgate
  obtain ⟨t, hexec, -, hcur, hsm, -⟩ := exec_ctrl_value hin q
  obtain ⟨hcurlo, hcurhi, hsmrange⟩ := hs r.toNat c.toNat
  have hcor := sgam_mem_range (fun i hi => hg i (by omega)) hcurlo hcurhi
  have herr : gatedError s.noise.toNat q (s.smQ r.toNat c.toNat) = 0 := by rw [gatedError_eq, if_pos hgate]
  rw [ctrlUpdate_of_no_error herr hcurlo hcurhi] at hcur hsm
  refine ⟨t, hexec, hcur, ?_⟩
  rw [hsm, nextSm_of_mem s hsmrange hcor, add_eq_left, rshr_sixteen_eq_zero_iff]

end Sys2Proof.Machine
end

section
/-! SUPPORT. O43: a full tick in DELTA mode on a frame whose sub-regions are equal (R134). -/

namespace Sys2Proof.Machine

open Sys2Proof.Statements

/-- Equal sub-regions give every cell of the grid the target 0 (R106). -/
theorem targetDelta_of_equal {s : State} (hdegen : degenerate .delta s = false)
    (hequal : ∀ y x, y < s.params.height → x < s.halfW →
      s.pixel (pixelAddr s y x) = s.pixel (pixelAddr s y (s.halfW + s.gap.toNat + x)))
    {r c : Nat} (hr : r < s.nAct.toNat) (hc : c < s.mAct.toNat) : targetDelta s r c = .value 0 := by
  rw [targetDelta, if_neg (of_decide_eq_false hdegen), meanQ_right_eq_left hr hc hequal, Int.sub_self]

/-- An unchanged request leaves the whole state as it is (R165). -/
theorem latchConfig_of_unchanged {s : State} (h : GridUnchanged s) : latchConfig s = s := by
  obtain ⟨hvalid, hn, hm⟩ := h
  rw [latchConfig, if_pos hvalid, if_pos ⟨hn, hm⟩]

/-- With an unchanged request and blocks that are not degenerate the sampling phase raises nothing (R103, R165). -/
theorem sampled_of_unchanged {s : State} (h : GridUnchanged s) (hdegen : degenerate s.modeAct s = false) :
    sampled s = { s with busy := true } := by
  rw [sampled, latchConfig_setBusy, raiseDegen_setBusy, latchConfig_of_unchanged h, raiseDegen_of_not hdegen]

/-- With GLUT[0] = 0 a target of 0 holds a cell at 0 (R134). -/
theorem ctrlUpdate_zero {s : State} (hg : glutAt s.glut 0 = 0) : ctrlUpdate s 0 0 0 = (0, 0) := by
  have hrange := zero_mem_range s.modeAct
  have herr : gatedError s.noise.toNat 0 0 = 0 := ite_self 0
  have hsm : nextSm s.smooth.toNat (rangeLo s.modeAct) 0 0 = 0 := by
    rw [nextSm_of_mem s hrange hrange, Int.sub_self, mul_zero]
    rfl
  rw [ctrlUpdate_of_no_error herr hrange.1 hrange.2, sgam_zero, hg, hsm]

/-- With GLUT[0] = 0 and a target of 0 for each cell of the region, the control phase holds all-zero cells at 0
(R134). -/
theorem controlPhase_of_zero {s : State} {tgt : Nat → Nat → Target} (hg : glutAt s.glut 0 = 0)
    (hzero : ∀ r c, s.curQ r c = 0 ∧ s.smQ r c = 0) (htgt : ∀ r c, s.inRegion r c = true → tgt r c = .value 0)
    (r c : Nat) : (controlPhase s tgt).curQ r c = 0 ∧ (controlPhase s tgt).smQ r c = 0 := by
  obtain ⟨hcur, hsm⟩ := controlPhase_spec s tgt r c
  rw [State.curQ, State.smQ, hcur, hsm]
  split
  · rename_i hin
    obtain ⟨hcur₀, hsm₀⟩ := hzero r c
    obtain ⟨hvcur, hvsm⟩ := ctrlCell_value s r c 0 s.cells
    rw [State.curQ] at hcur₀
    rw [State.smQ] at hsm₀
    rw [hcur₀, hsm₀, ctrlUpdate_zero hg] at hvcur hvsm
    rw [htgt r c hin]
    exact ⟨hvcur, hvsm⟩
  · exact hzero r c

/-- In DELTA mode a smoothed output of 0 is sent as 128 (R142). -/
theorem sentByte_of_zero {s : State} (hm : s.modeAct = .delta) {r c : Nat} (h : s.smQ r c = 0) :
    sentByte s r c = 128 := by
  rw [sentByte, hm, h]
  rfl

/-- Settles O43: every target is 0, so the control phase holds the cells at 0, and 0 is sent as 128. -/
theorem deltaSymmetryKeepsTheMidpoint : Obligations.DeltaSymmetryKeepsTheMidpoint := by
  intro s hs hrun hgrid hm hg hrows hcols hzero hequal
  have hdegen : degenerate .delta s = false := by
    rw [← Bool.not_eq_true, degenerate_delta_iff hs.rows.1 hs.columns.1]
    omega
  have hsampled : sampled s = { s with busy := true } := sampled_of_unchanged hgrid (hm ▸ hdegen)
  have htargets : ∀ r c, (sampled s).inRegion r c = true → targetOf s.modeAct (sampled s) r c = .value 0 := by
    intro r c hin
    rw [hsampled] at hin ⊢
    obtain ⟨hnc, hmc⟩ := State.nc_grid (s := s) (by simp [hm])
    obtain ⟨hr, hc⟩ := State.inRegion_iff.1 hin
    rw [hm]
    exact targetDelta_of_equal hdegen hequal (hnc ▸ hr) (hmc ▸ hc)
  have hheld := controlPhase_of_zero (s := sampled s) (by rwa [hsampled]) (by rwa [hsampled]) htargets
  refine ⟨fullTick s, congrArg _ (tickBlock_of_tickRuns hrun), hheld, ?lines⟩
  case lines =>
    have hsent : sentByte (controlPhase (sampled s) (targetOf s.modeAct (sampled s))) = fun _ _ => 128 :=
      funext₂ fun r c => sentByte_of_zero (by rw [controlPhase_modeAct, hsampled, hm]) (hheld r c).2
    rw [fullTick_tx, tickLines_eq, hsent, hsampled]
    rfl

end Sys2Proof.Machine
end

section
/-! SUPPORT. O41: the lines of a full tick, taken from the state it leaves. -/

namespace Sys2Proof.Machine

open Sys2Proof.Statements

@[simp] theorem fullTick_modeAct (s : State) : (fullTick s).modeAct = s.modeAct := by
  rw [fullTick_frame]

@[simp] theorem fullTick_st (s : State) : (fullTick s).st = s.st := by
  rw [fullTick_frame]

/-- After the control phase a tick changes neither the region nor the cells, so its lines are those of the state it
leaves (R145, R166). -/
theorem fullTick_tx_eq_tickLines (s : State) : (fullTick s).tx = s.tx ++ tickLines (fullTick s) :=
  fullTick_tx s

/-- Settles O41: a full tick keeps the cells in range, where the clamps of the encoder do not act. -/
theorem fullTickEmitsOneLinePerCell : Obligations.FullTickEmitsOneLinePerCell := by
  intro s hs hrun
  have hst : s.st = .running := hrun.1
  have hafter : Safe (fullTick s) := hs.fullTick (by simp [hst])
  have hrange : (fullTick s).CellsInRange := hafter.range (hafter.specified (by simp [hst]))
  refine ⟨fullTick s, sentByte (fullTick s), congrArg _ (tickBlock_of_tickRuns hrun), ?lines, fun r c _ _ => ?sent⟩
  case lines => rw [← tickLines_eq, fullTick_tx_eq_tickLines]
  case sent => simpa using isSentFor_sentByte hrange r c

end Sys2Proof.Machine
end

section
/-! SUPPORT. O33 to O36: the operations of the encoder, each run on its own. -/

namespace Sys2Proof.Machine

/-! ### ENC.ABS and ENC.DELTA (R141, R142) -/

/-- A byte holds every value of 0..255 exactly (R147). -/
theorem toNat_ofInt_byte {x : Int} (h : 0 ≤ x ∧ x ≤ 255) : ((BitVec.ofInt 8 x).toNat : Int) = x := by
  rw [BitVec.toNat_ofInt]
  omega

/-- Settles O33: on the operand range ENC.ABS is the rounded quotient, which fits its byte. -/
theorem encAbsRoundsToTheNearestValue : Obligations.EncAbsRoundsToTheNearestValue := by
  intro s q hlo hhi
  have hv : ((BitVec.ofInt 8 (encAbsOf q)).toNat : Int) = (q + 128) / 256 := by
    rw [toNat_ofInt_byte (encAbsOf_mem q), encAbsOf_eq hlo hhi]
  refine ⟨BitVec.ofInt 8 (encAbsOf q), rfl, ?below, ?above⟩
  case below => omega
  case above => omega

/-- ENC.DELTA sends 0 as 128: 127.5 is a tie, and it goes up (R142). -/
theorem encDeltaOf_zero : encDeltaOf 0 = 128 := rfl

/-- Settles O34: on the operand range ENC.DELTA is the rounded quotient, which fits its byte. -/
theorem encDeltaRoundsToTheNearestValue : Obligations.EncDeltaRoundsToTheNearestValue := by
  intro s q hlo hhi
  have hv : ((BitVec.ofInt 8 (encDeltaOf q)).toNat : Int) = (q + 65280 + 256) / 512 := by
    rw [toNat_ofInt_byte (encDeltaOf_mem q), encDeltaOf_eq hlo hhi]
  refine ⟨BitVec.ofInt 8 (encDeltaOf q), rfl, ?below, ?above, ?zero⟩
  case below => omega
  case above => omega
  case zero =>
    rintro rfl
    rw [encDeltaOf_zero]
    rfl

/-! ### EMIT (R144) -/

/-- The bytes of a line, in the order written (R84). -/
theorem ledLine_eq (row col value : Nat) :
    ledLine row col value = dec row ++ [0x2C] ++ dec col ++ [0x2C] ++ dec value ++ [0x0A] := by
  simp [ledLine, comma, lineFeed]

theorem ledLine_isEmpty (row col value : Nat) : (ledLine row col value).isEmpty = false := by
  simp [ledLine]

/-- TXFAIL is bit 3 of ERR (R37). -/
theorem setErr_txFail (e : Byte) : setErr e .txFail = e ||| 0x08 := rfl

/-- Settles O35: a line has bytes, so a reported failure always raises TXFAIL. -/
theorem emitAppendsItsLine : Obligations.EmitAppendsItsLine := by
  intro s r c v
  have hrun : exec (.emit r c v) s = .next (emitBytes (ledLine r.toNat c.toNat v.toNat) s) := rfl
  rw [hrun, emitBytes, ledLine_isEmpty, Bool.not_false, Bool.and_true, setErr_txFail, ledLine_eq]

/-! ### LEDCMD (R148) -/

/-- Settles O36, by the laws of a list with one more entry (log 13). -/
theorem ledcmdRecordsItsRequest : Obligations.LedcmdRecordsItsRequest := by
  intro s row col value
  refine ⟨{ s with asked := enlist cellLt (row.toNat, col.toNat) value s.asked }, rfl, rfl, ?asked,
    fun k hk => ?others⟩
  case asked => exact listed_enlist_self cellLt _ value s.asked
  case others => exact listed_enlist_other cellLt hk value s.asked

end Sys2Proof.Machine
end

section
/-! SUPPORT. O39: a full tick is its micro-operations, run one after another (R166). -/

namespace Sys2Proof.Machine

open Sys2Proof.Statements

/-! ### Runs of CTRL and of EMIT -/

/-- An operation that answers a next state is run, and the rest after it. -/
theorem runAll_cons {i : Instr} {s t : State} (h : exec i s = .next t) (is : List Instr) :
    runAll (i :: is) s = runAll is t := by
  rw [runAll, h]

/-- CTRL over cells of the control region, run one by one, is the fold of the control phase over them (R129). -/
theorem runAll_ctrl (s : State) (tgt : Nat → Nat → Target) (l : List (Nat × Nat)) (hl : ∀ rc ∈ l, rc ∈ s.region)
    (cs : Cells) :
    runAll (l.map fun rc => .ctrl (byteOf rc.1) (byteOf rc.2) (tgt rc.1 rc.2)) { s with cells := cs } =
      .next { s with cells := l.foldl (fun cs rc => ctrlCell s rc.1 rc.2 (tgt rc.1 rc.2) cs) cs } := by
  induction l generalizing cs with
  | nil => rfl
  | cons rc l ih =>
    obtain ⟨hr, hc⟩ := mem_cellOrder.1 (hl rc List.mem_cons_self)
    obtain ⟨hnc, hmc⟩ := s.region_lt
    have hone : exec (.ctrl (byteOf rc.1) (byteOf rc.2) (tgt rc.1 rc.2)) { s with cells := cs } =
        .next { s with cells := ctrlCell s rc.1 rc.2 (tgt rc.1 rc.2) cs } := by
      rw [exec_ctrl, toNat_byteOf (by omega), toNat_byteOf (by omega), regionCtrl,
        if_pos (State.inRegion_iff.2 ⟨hr, hc⟩)]
    rw [List.map_cons, runAll_cons hone, ih (fun x hx => hl x (List.mem_cons_of_mem rc hx)), List.foldl_cons]

theorem ctrlOps_eq (s : State) :
    ctrlOps s = s.region.map fun rc =>
      .ctrl (byteOf rc.1) (byteOf rc.2) ((targetEntry s.targets rc.1 rc.2).getD .skip) := by
  simp [ctrlOps, State.region, cellOrder, List.map_flatMap, Function.comp_def]

/-- The CTRLs of a tick are its control phase, with the targets that the SAMPLE operation returned. -/
theorem runAll_ctrlOps (s : State) :
    runAll (ctrlOps s) s = .next (controlPhase s fun r c => (targetEntry s.targets r c).getD .skip) := by
  rw [ctrlOps_eq]
  exact runAll_ctrl s (fun r c => (targetEntry s.targets r c).getD .skip) s.region (fun _ h => h) s.cells

/-- The control phase reads the targets of the control region only. -/
theorem controlPhase_congr (s : State) {f g : Nat → Nat → Target} (h : ∀ r c, r < s.nc → c < s.mc → f r c = g r c) :
    controlPhase s f = controlPhase s g := by
  have hcells : (controlPhase s f).cells = (controlPhase s g).cells :=
    List.foldl_ext _ _ s.cells fun cs rc hrc => by
      obtain ⟨hr, hc⟩ := mem_cellOrder.1 hrc
      rw [h rc.1 rc.2 hr hc]
  exact congrArg (fun cs => { s with cells := cs }) hcells

theorem emitBytes_nil (s : State) : emitBytes [] s = s := by
  simp [emitBytes]

theorem setErr_setErr (e : Byte) (f : ErrFlag) : setErr (setErr e f) f = setErr e f := by
  rw [setErr, setErr, BitVec.or_assoc, BitVec.or_self]

/-- Bytes emitted in two parts are emitted as one (R144). -/
theorem emitBytes_append (as bs : List Byte) (s : State) :
    emitBytes bs (emitBytes as s) = emitBytes (as ++ bs) s := by
  have herr : (emitBytes bs (emitBytes as s)).err = (emitBytes (as ++ bs) s).err := by
    rw [emitBytes_err, emitBytes_err, emitBytes_err, emitBytes_pins]
    cases s.pins.txFail <;> cases as <;> cases bs <;> simp [setErr_setErr]
  have htx : (emitBytes bs (emitBytes as s)).tx = (emitBytes (as ++ bs) s).tx := by simp
  calc emitBytes bs (emitBytes as s)
      = { s with tx := (emitBytes bs (emitBytes as s)).tx, err := (emitBytes bs (emitBytes as s)).err } := rfl
    _ = { s with tx := (emitBytes (as ++ bs) s).tx, err := (emitBytes (as ++ bs) s).err } := by rw [htx, herr]
    _ = emitBytes (as ++ bs) s := rfl

theorem exec_emit (r c v : Byte) (s : State) :
    exec (.emit r c v) s = .next (emitBytes (encode (.ledcmd r c v)) s) := rfl

/-- EMIT over a list of cells, run one by one, emits their lines one after another (R144). -/
theorem runAll_emit (v : Nat → Nat → Byte) (l : List (Nat × Nat)) (s : State) :
    runAll (l.map fun rc => .emit (byteOf rc.1) (byteOf rc.2) (v rc.1 rc.2)) s =
      .next (emitBytes (l.flatMap fun rc => encode (.ledcmd (byteOf rc.1) (byteOf rc.2) (v rc.1 rc.2))) s) := by
  induction l generalizing s with
  | nil => exact congrArg _ (emitBytes_nil s).symm
  | cons rc l ih => rw [List.map_cons, runAll_cons (exec_emit _ _ _ s), ih, emitBytes_append, List.flatMap_cons]

/-- Each EMIT of a tick carries the byte that the mode sends for the cell's SM (R145). -/
theorem emitOps_eq (s : State) :
    emitOps s = s.region.map fun rc => .emit (byteOf rc.1) (byteOf rc.2) (sentByte s rc.1 rc.2) := by
  have hbyte : ∀ r c, BitVec.ofInt 8 (if s.modeAct = .delta then encDeltaOf (s.smQ r c) else encAbsOf (s.smQ r c))
      = sentByte s r c := by
    intro r c
    rw [sentByte]
    cases s.modeAct <;> rfl
  simp [emitOps, State.region, cellOrder, List.map_flatMap, Function.comp_def, hbyte]

/-- The EMITs of a tick are its encode-and-emit phase. -/
theorem runAll_emitOps (s : State) : runAll (emitOps s) s = .next (emitPhase s) := by
  have hlines : (s.region.flatMap fun rc => encode (.ledcmd (byteOf rc.1) (byteOf rc.2) (sentByte s rc.1 rc.2)))
      = tickLines s :=
    List.flatMap_congr fun rc hrc => (cellLine_eq (mem_cellOrder.1 hrc).1 (mem_cellOrder.1 hrc).2).symm
  rw [emitOps_eq, runAll_emit, hlines, emitPhase_eq]

/-! ### SAMPLE -/

/-- What the SAMPLE operation of a mode returns (R105, R106, R107). -/
def sampleTargets (m : Mode) (s : State) : List (List Target) :=
  match m with
  | .single => [[targetSingle s]]
  | m => targetRows s.nAct.toNat s.mAct.toNat (targetOf m s)

/-- The state that the SAMPLE operation of the mode leaves, run on its own (R103, R105 to R107; log 11). -/
def afterSample (s : State) : State :=
  { s with err := (raiseDegen s.modeAct s).err, targets := sampleTargets s.modeAct s }

theorem exec_sampleOp (s : State) : exec (sampleOp s.modeAct) s = .next (afterSample s) := by
  have hraise : ({ raiseDegen s.modeAct s with targets := sampleTargets s.modeAct s } : State) = afterSample s := by
    rw [raiseDegen_frame]
    rfl
  rw [← hraise]
  cases s.modeAct <;> rfl

/-- Over the control region the matrix holds the target of each cell (R100). -/
theorem targetEntry_sampleTargets {s : State} {r c : Nat} (hr : r < s.nc) (hc : c < s.mc) :
    targetEntry (sampleTargets s.modeAct s) r c = some (targetOf s.modeAct s r c) := by
  by_cases hm : s.modeAct = .single
  · obtain ⟨hnc, hmc⟩ := State.nc_single hm
    obtain ⟨rfl, rfl⟩ : r = 0 ∧ c = 0 := by omega
    rw [hm]
    rfl
  · obtain ⟨hnc, hmc⟩ := State.nc_grid hm
    have hrows : sampleTargets s.modeAct s = targetRows s.nAct.toNat s.mAct.toNat (targetOf s.modeAct s) := by
      cases hmode : s.modeAct with
      | single => exact absurd hmode hm
      | _ => rfl
    rw [hrows, targetEntry_targetRows _ (hnc ▸ hr) (hmc ▸ hc)]

/-- The CTRLs after the SAMPLE operation of the mode take each cell's own target (R166). -/
theorem runAll_ctrlOps_afterSample (s : State) :
    runAll (ctrlOps (afterSample s)) (afterSample s) =
      .next (controlPhase (afterSample s) (targetOf s.modeAct s)) := by
  rw [runAll_ctrlOps]
  refine congrArg _ (controlPhase_congr (afterSample s) fun r c hr hc => ?_)
  exact congrArg (·.getD .skip) (targetEntry_sampleTargets (s := s) hr hc)

/-! ### The tick -/

/-- The flags and BUSY are nothing a target depends on (R104 to R107). -/
theorem targetOf_setErr_setBusy (m : Mode) (s : State) (e : Byte) (b : Bool) :
    targetOf m { s with err := e, busy := b } = targetOf m s := by
  cases m <;> rfl

/-- A full tick as its operations leave it: they run with BUSY at 0, which no phase reads, and `targets` stays as it was
(R28, R166; log 11). -/
theorem fullTick_eq_afterSample (s : State) :
    fullTick s =
      { emitPhase (controlPhase (afterSample (latchConfig s)) (targetOf (latchConfig s).modeAct (latchConfig s))) with
        frameValid := false, busy := false, targets := s.targets } := by
  have hsampled : sampled s =
      { latchConfig s with err := (raiseDegen s.modeAct (latchConfig s)).err, busy := true } := by
    rw [sampled, latchConfig_setBusy, raiseDegen_setBusy, raiseDegen_frame]
  rw [fullTick_eq, hsampled, targetOf_setErr_setBusy, ← latchConfig_modeAct s, ← latchConfig_targets s]
  rfl

/-- Settles O39: the runs of CTRL and of EMIT are the phases of the tick, and the matrix hands on the targets. -/
theorem fullTickIsItsMicroOperations : Obligations.FullTickIsItsMicroOperations := by
  intro s hrun
  have htick : exec .tick s = .next (fullTick s) := congrArg _ (tickBlock_of_tickRuns hrun)
  rw [fullTick_eq_afterSample] at htick
  exact ⟨latchConfig s, _, _, _, rfl, exec_sampleOp _, runAll_ctrlOps_afterSample _, runAll_emitOps _, htick⟩

end Sys2Proof.Machine
end

section
/-! SUPPORT. O49 and O50: the register port, register by register (R157, R158). -/

namespace Sys2Proof.Machine

open Sys2Proof.Statements

/-! ### The words read (R157) -/

/-- Bits put side by side are a sum of weights (R36). -/
theorem toNat_append_eq_add {k l : Nat} (x : BitVec k) (y : BitVec l) :
    (x ++ y).toNat = x.toNat * 2 ^ l + y.toNat := by
  rw [BitVec.toNat_append, ← Nat.shiftLeft_add_eq_or_of_lt y.isLt, Nat.shiftLeft_eq]

theorem toNat_stCode (x : SchedState) : (stCode x).toNat = codeOfSt x := by cases x <;> rfl

theorem toNat_modeCode (m : Mode) : (modeCode m).toNat = codeOfMode m := by cases m <;> rfl

/-- A field no wider than a register word is read as the number it holds (R157). -/
theorem toNat_fieldWord {w : Nat} (h : w ≤ 32) (x : BitVec w) : (x.setWidth 32).toNat = x.toNat :=
  BitVec.toNat_setWidth_of_le h

/-- The weights of the STATUS word (R36). -/
theorem toNat_statusWord (s : State) :
    (statusWord s).toNat = codeOfSt s.st + 4 * s.busy.toNat + 8 * s.closeReq.toNat + 16 * s.srcHeld.toNat
      + 32 * s.txHeld.toNat + 64 * s.frameValid.toNat := by
  rw [statusWord, toNat_fieldWord (by decide)]
  simp only [toNat_append_eq_add, BitVec.toNat_ofBool, toNat_stCode]
  omega

/-- The debug window on CUR: the selected cell, sign-extended, or 0 outside the arrays (R44). -/
theorem toInt_readReg_cellCur (s : State) :
    (readReg .cellCur s).toInt =
      if s.cellSel.toNat / 256 < s.params.nmax ∧ s.cellSel.toNat % 256 < s.params.mmax
      then s.curQ (s.cellSel.toNat / 256) (s.cellSel.toNat % 256) else 0 := by
  simp only [readReg, State.selected]
  split_ifs
  · exact BitVec.toInt_signExtend_of_le (by decide)
  · rfl

/-- The debug window on SM (R44). -/
theorem toInt_readReg_cellSm (s : State) :
    (readReg .cellSm s).toInt =
      if s.cellSel.toNat / 256 < s.params.nmax ∧ s.cellSel.toNat % 256 < s.params.mmax
      then s.smQ (s.cellSel.toNat / 256) (s.cellSel.toNat % 256) else 0 := by
  simp only [readReg, State.selected]
  split_ifs
  · exact BitVec.toInt_signExtend_of_le (by decide)
  · rfl

theorem toNat_readReg_glut (i : Fin 256) (s : State) : ((readReg (.glut i) s).toNat : Int) = glutAt s.glut i := by
  rw [readReg, toNat_fieldWord (by decide), glutAt, dif_pos i.isLt]

/-- Settles O49, register by register. -/
theorem rdregReturnsTheMappedWord : Obligations.RdregReturnsTheMappedWord := by
  intro s n
  refine ⟨readReg (regOf n) s, rfl, ?cmd, ?status, ?err, ?mode, ?gridN, ?gridM, ?kp, ?smooth, ?noise, ?gap,
    ?frameValid, ?nAct, ?mAct, ?modeAct, ?cellSel, ?window, ?glut, ?unmapped⟩
  case cmd => rintro rfl; rfl
  case status => rintro rfl; exact toNat_statusWord s
  case err => rintro rfl; exact toNat_fieldWord (by decide) s.err
  case mode => rintro rfl; exact (toNat_fieldWord (by decide) _).trans (toNat_modeCode s.mode)
  case gridN => rintro rfl; rfl
  case gridM => rintro rfl; rfl
  case kp => rintro rfl; exact toNat_fieldWord (by decide) s.kp
  case smooth => rintro rfl; exact toNat_fieldWord (by decide) s.smooth
  case noise => rintro rfl; exact toNat_fieldWord (by decide) s.noise
  case gap => rintro rfl; exact toNat_fieldWord (by decide) s.gap
  case frameValid => rintro rfl; exact (toNat_fieldWord (by decide) _).trans (BitVec.toNat_ofBool _)
  case nAct => rintro rfl; exact toNat_fieldWord (by decide) s.nAct
  case mAct => rintro rfl; exact toNat_fieldWord (by decide) s.mAct
  case modeAct => rintro rfl; exact (toNat_fieldWord (by decide) _).trans (toNat_modeCode s.modeAct)
  case cellSel => rintro rfl; exact toNat_fieldWord (by decide) s.cellSel
  case window =>
    rintro _ _ rfl rfl
    exact ⟨fun hn => hn ▸ toInt_readReg_cellCur s, fun hn => hn ▸ toInt_readReg_cellSm s⟩
  case glut =>
    intro i hi hn
    rw [regOf_glut (by omega) hn]
    exact toNat_readReg_glut ⟨i, by omega⟩ s
  case unmapped =>
    intro hn
    rw [regOf_unmapped hn]
    rfl

/-! ### The words written (R158) -/

/-- A 16-bit register takes the low 16 bits of the word. -/
theorem setWidth_sixteen (v : Word) : v.setWidth 16 = v.extractLsb' 0 16 :=
  BitVec.setWidth_eq_extractLsb' (by decide)

theorem exec_wrreg {n : Word} {r : Reg} (hn : regOf n = r) (v : Word) (s : State) :
    exec (.wrreg n v) s = .next (writeReg r v s) := by
  rw [← hn]
  rfl

/-- The codes of R38 are the words that ask for a mode. -/
theorem modeOf_of_code {v : Word} {m : Mode} (hv : v.toNat = codeOfMode m) : modeOf v = some m := by
  have hword : v = BitVec.ofNat 32 (codeOfMode m) := BitVec.eq_of_toNat_eq (by rw [hv]; cases m <;> rfl)
  rw [hword]
  cases m <;> rfl

theorem modeOf_of_reserved {v : Word} (hv : 2 < v.toNat) : modeOf v = none := by
  have ne : ∀ k : Word, k.toNat ≤ 2 → v ≠ k := fun k hk e => by subst e; omega
  rw [modeOf, if_neg (ne 0 (by decide)), if_neg (ne 1 (by decide)), if_neg (ne 2 (by decide))]

theorem writeReg_mode_idle {v : Word} {m : Mode} {s : State} (hst : s.st = .idle) (hm : modeOf v = some m) :
    writeReg .mode v s = { s with mode := m } := by
  simp [writeReg, hm, hst]

/-- MODE refuses a reserved code, and outside IDLE every word (R38, R92). -/
theorem writeReg_mode_refused {v : Word} {s : State} (h : s.st ≠ .idle ∨ 2 < v.toNat) :
    writeReg .mode v s = raise .badWr s := by
  obtain hst | hv := h
  · cases hm : modeOf v <;> simp [writeReg, hm, hst]
  · simp [writeReg, modeOf_of_reserved hv]

theorem writeReg_glut_idle {s : State} (hst : s.st = .idle) (i : Fin 256) (v : Word) :
    writeReg (.glut i) v s = { s with glut := s.glut.set i.val (v.extractLsb' 0 16) i.isLt } := by
  rw [← setWidth_sixteen, writeReg, if_pos hst]

theorem writeReg_glut_refused {s : State} (hst : s.st ≠ .idle) (i : Fin 256) (v : Word) :
    writeReg (.glut i) v s = raise .badWr s := by
  rw [writeReg, if_neg hst]

/-- The register numbers that no word may be written to (R34). -/
theorem exec_wrreg_readOnly {n : Word} (v : Word) (s : State)
    (hn : n ∈ ([0x001, 0x002, 0x00B, 0x00C, 0x00D, 0x00F, 0x010] : List Word) ∨
      (0x010 < n.toNat ∧ n.toNat < 0x100) ∨ 0x1FF < n.toNat) :
    exec (.wrreg n v) s = .next (raise .badWr s) := by
  obtain hmapped | hout := hn
  · simp only [List.mem_cons, List.not_mem_nil, or_false] at hmapped
    obtain rfl | rfl | rfl | rfl | rfl | rfl | rfl := hmapped <;> rfl
  · rw [exec_wrreg (regOf_unmapped hout)]
    rfl

/-- Settles O50, register by register. -/
theorem wrregWritesTheMappedRegister : Obligations.WrregWritesTheMappedRegister := by
  intro s v
  rw [← setWidth_sixteen]
  refine ⟨rfl, rfl, rfl, reservedCommandWordOnlyRaisesBadcmd v s, fun m hst hv => ?mode, fun h => ?modeRefused, rfl,
    rfl, rfl, rfl, rfl, rfl, rfl, rfl, fun n i h hn => ⟨fun hst => ?glut, fun hst => ?glutRefused⟩,
    fun n hn => exec_wrreg_readOnly v s hn⟩
  case mode => rw [exec_wrreg (r := .mode) rfl, writeReg_mode_idle hst (modeOf_of_code hv)]
  case modeRefused =>
    rw [exec_wrreg (r := .mode) rfl, writeReg_mode_refused h]
    rfl
  case glut => rw [exec_wrreg (regOf_glut h hn), writeReg_glut_idle hst, setWidth_sixteen]
  case glutRefused =>
    rw [exec_wrreg (regOf_glut h hn), writeReg_glut_refused hst]
    rfl

end Sys2Proof.Machine
end

section
/-! SUPPORT. O52: the frame port (R160). -/

namespace Sys2Proof.Machine

/-- A pixel reads the byte just written to it (R65, R160). -/
theorem pixel_write_self (s : State) (a : Nat) (b : Byte) :
    ({ s with fb := s.fb.write a b } : State).pixel a = b := by
  simp [State.pixel]

theorem pixel_write_other (s : State) {a a' : Nat} (h : a' ≠ a) (b : Byte) :
    ({ s with fb := s.fb.write a b } : State).pixel a' = s.pixel a' := by
  simp only [State.pixel, Memory.read?_write_other s.fb h b]

/-- Settles O52, by whether the address lies in the frame space. -/
theorem wrfbStoresItsByte : Obligations.WrfbStoresItsByte := by
  intro s a b
  refine ⟨fun hin => ⟨{ s with fb := s.fb.write a.toNat b }, ?stored, rfl, pixel_write_self s a.toNat b,
    fun a' hne => pixel_write_other s hne b⟩, fun hout => ?refused⟩
  case stored => exact congrArg _ (if_pos hin)
  case refused => exact congrArg _ (if_neg (Nat.not_lt.2 hout))

end Sys2Proof.Machine
end

section
/-! SUPPORT. O14, O15, O37, O38, O44: the host commands, path by path (R161 to R164). -/

namespace Sys2Proof.Machine

open Sys2Proof.Statements

/-! ### START (R161) -/

theorem startBlock_outside_idle {s : State} (h : s.st ≠ .idle) : startBlock s = raise .badCmd s := if_pos h

theorem startBlock_no_transport {s : State} (hst : s.st = .idle) (ht : s.pins.transportReady = false) :
    startBlock s = { raise .noTransport s with st := .stopped } := by
  simp [startBlock, hst, ht]

theorem startBlock_no_source {s : State} (hst : s.st = .idle) (ht : s.pins.transportReady = true)
    (hsrc : s.pins.sourceReady = false) : startBlock s = s := by
  simp [startBlock, hst, ht, hsrc]

theorem startBlock_runs {s : State} (hst : s.st = .idle) (ht : s.pins.transportReady = true)
    (hsrc : s.pins.sourceReady = true) :
    startBlock s =
      { latchConfig { s with modeAct := s.mode, srcHeld := true, txHeld := true } with st := .running } := by
  simp [startBlock, hst, ht, hsrc]

/-- Settles O14. -/
theorem startFollowsItsFourPaths : Obligations.StartFollowsItsFourPaths := by
  intro s
  refine ⟨fun hst => ?outside, fun hst ht => ?fatal, fun hst ht hsrc => ?ignored,
    fun hst ht hsrc => ⟨_, rfl, ?runs⟩⟩
  case outside => exact congrArg _ (startBlock_outside_idle hst)
  case fatal => exact congrArg _ (startBlock_no_transport hst ht)
  case ignored => exact congrArg _ (startBlock_no_source hst ht hsrc)
  case runs => exact congrArg _ (startBlock_runs hst ht hsrc)

/-- The request at power-on is the active grid, and the parameters of R7 leave room for it (R39). -/
theorem gridUnchanged_resetOf {p : Params} (hp : p.wf = true) : GridUnchanged (State.resetOf p) := by
  simp only [Params.wf, decide_eq_true_eq] at hp
  have hvalid : 1 ≤ 5 ∧ 5 ≤ p.nmax ∧ 1 ≤ 5 ∧ 5 ≤ p.mmax := by omega
  exact ⟨decide_eq_true hvalid, rfl, rfl⟩

/-- Settles O15: LATCHCFG finds the request unchanged, so START writes MODE_ACT, the holds and ST only. -/
theorem startFromResetRuns : Obligations.StartFromResetRuns := by
  intro p f hp
  refine ⟨{ State.resetOf p with
      pins := { transportReady := true, sourceReady := true, txFail := f }
      srcHeld := true, txHeld := true, st := .running }, _, ?start, rfl, rfl, rfl, rfl, rfl, rfl,
    BitVec.eq_of_toNat_eq (toNat_statusWord _)⟩
  case start =>
    refine congrArg _ ((startBlock_runs rfl rfl rfl).trans ?_)
    rw [latchConfig_of_unchanged]
    · rfl
    · exact gridUnchanged_resetOf hp

/-! ### TICK (R163, R164) and CLOSE (R162) -/

/-- Settles O37. -/
theorem skippedTickOnlyRaisesNoframe : Obligations.SkippedTickOnlyRaisesNoframe := by
  intro s hst hc hb hf
  have htick : tickBlock s = raise .noFrame s := by simp [tickBlock, hst, hc, hb, hf]
  exact congrArg _ htick

/-- A TICK outside RUNNING or after a close request is ignored (R163). -/
theorem tickBlock_ignored {s : State} (h : s.st ≠ .running ∨ s.closeReq = true) : tickBlock s = s := by
  obtain hst | hc := h
  · exact if_pos hst
  · simp [tickBlock, hc]

/-- A TICK while BUSY overruns (R199). -/
theorem tickBlock_overruns {s : State} (hst : s.st = .running) (hc : s.closeReq = false) (hb : s.busy = true) :
    tickBlock s = raise .overrun s := by
  simp [tickBlock, hst, hc, hb]

/-- Settles O38. -/
theorem tickIsIgnoredOrOverruns : Obligations.TickIsIgnoredOrOverruns :=
  fun _ => ⟨fun h => congrArg _ (tickBlock_ignored h), fun hst hc hb => congrArg _ (tickBlock_overruns hst hc hb)⟩

/-- Settles O44. -/
theorem closeOnlySetsTheRequest : Obligations.CloseOnlySetsTheRequest := fun _ => rfl

end Sys2Proof.Machine
end

section
/-! SUPPORT. O9, O46, O47, O48: the internal transitions, as operations and as steps of their own (R167, R168). -/

namespace Sys2Proof.Machine

theorem closeEnabled_iff (s : State) :
    s.closeEnabled = true ↔ s.st = .running ∧ s.closeReq = true ∧ s.busy = false := by
  simp [State.closeEnabled, and_assoc]

theorem stopEnabled_iff (s : State) : s.stopEnabled = true ↔ s.st = .shutting := decide_eq_true_iff

theorem fireClose_of_disabled {s : State} (h : ¬(s.st = .running ∧ s.closeReq = true ∧ s.busy = false)) :
    fireClose s = s := if_neg (mt (closeEnabled_iff s).1 h)

theorem fireClose_of_enabled {s : State} (hst : s.st = .running) (hc : s.closeReq = true) (hb : s.busy = false) :
    fireClose s = { s with st := .shutting } := if_pos ((closeEnabled_iff s).2 ⟨hst, hc, hb⟩)

theorem fireStop_of_disabled {s : State} (h : s.st ≠ .shutting) : fireStop s = s :=
  if_neg (mt (stopEnabled_iff s).1 h)

/-- Settles O46. -/
theorem tauCloseEntersShutting : Obligations.TauCloseEntersShutting :=
  fun _ hst hc hb => congrArg _ (fireClose_of_enabled hst hc hb)

/-- TAU.STOP writes the holds, ST, the cells and the counter of draws (R168; log 7). -/
theorem fireStop_frame {s : State} (hst : s.st = .shutting) :
    fireStop s = { s with
      srcHeld := false, txHeld := false, st := .stopped, cells := (fireStop s).cells
      freeCount := (fireStop s).freeCount } := by
  rw [fireStop, if_pos ((stopEnabled_iff s).2 hst)]

/-- Settles O47. -/
theorem tauStopReleasesAndStops : Obligations.TauStopReleasesAndStops :=
  fun s hst => ⟨fireStop s, rfl, fireStop_frame hst⟩

/-- Settles O48. -/
theorem disabledTransitionsDoNotFire : Obligations.DisabledTransitionsDoNotFire :=
  fun _ => ⟨fun h => congrArg _ (fireClose_of_disabled h), fun h => congrArg _ (fireStop_of_disabled h)⟩

/-- No transition is enabled outside SHUTTING, unless a close was requested in RUNNING (R167, R168). -/
theorem enabledTau_eq_none {s : State} (hclose : ¬(s.st = .running ∧ s.closeReq = true ∧ s.busy = false))
    (hstop : s.st ≠ .shutting) : enabledTau s = none := by
  rw [enabledTau, if_neg (mt (closeEnabled_iff s).1 hclose), if_neg (mt (stopEnabled_iff s).1 hstop)]

/-- Settles O9, by the transition that is enabled. -/
theorem quietStepFiresTheEnabledTransition : Obligations.QuietStepFiresTheEnabledTransition := by
  intro s hp
  refine ⟨step_quiet_running hp, fun hst => ?stop, fun h => ?none⟩
  case stop =>
    have hend := ended_fireStop hst
    exact ⟨fireStop s, step_quiet_shutting hp hst, fireStop_st hst, hend.srcHeld, hend.txHeld⟩
  case none =>
    refine step_of_quiet hp ?_
    obtain hst | hst | ⟨hst, hno⟩ := h
    · exact enabledTau_eq_none (by simp [hst]) (by simp [hst])
    · exact enabledTau_eq_none (by simp [hst]) (by simp [hst])
    · refine enabledTau_eq_none ?_ (by simp [hst])
      rintro ⟨-, hc, hb⟩
      simp [hc, hb] at hno

end Sys2Proof.Machine
end

section
/-! SUPPORT. O16, O17: LATCHCFG, and the cells when the grid grows (R165, R23). -/

namespace Sys2Proof.Machine

/-- A valid request raises no flag (R165). -/
theorem latchConfig_err_of_valid {s : State} (hv : s.gridValid = true) : (latchConfig s).err = s.err := by
  obtain ⟨hno, -⟩ | ⟨-, -, -, h⟩ | ⟨-, -, h⟩ := latchConfig_cases s
  · simp [hv] at hno
  · rw [h]
  · rw [h]

/-- In SINGLE mode LATCHCFG resizes nothing (R165). -/
theorem latchConfig_cells_of_single {s : State} (hm : s.modeAct = .single) : (latchConfig s).cells = s.cells := by
  obtain ⟨-, h⟩ | ⟨-, -, -, h⟩ | ⟨-, -, h⟩ := latchConfig_cases s
  · rw [h, raise_cells]
  · rw [h]
  · rw [h, if_pos hm]

/-- The overlap of the two grids, written out (R165). -/
theorem outsideOverlap_iff (s : State) (r c : Nat) :
    s.outsideOverlap r c = true ↔
      ¬(r < s.gridN.toNat ∧ r < s.nAct.toNat ∧ c < s.gridM.toNat ∧ c < s.mAct.toNat) := by
  simp only [State.outsideOverlap, Bool.not_eq_true', decide_eq_false_iff_not, lt_min_iff, and_assoc]

/-- A resize keeps the cells of the overlap and zeroes the others of the arrays (R165). -/
theorem latchConfig_resized {s : State} (hv : s.gridValid = true) (hm : s.modeAct ≠ .single)
    (hne : ¬(s.gridN.toNat = s.nAct.toNat ∧ s.gridM.toNat = s.mAct.toNat)) {r c : Nat} (hr : r < s.params.nmax)
    (hc : c < s.params.mmax) :
    if r < s.gridN.toNat ∧ r < s.nAct.toNat ∧ c < s.gridM.toNat ∧ c < s.mAct.toNat
    then (latchConfig s).curQ r c = s.curQ r c ∧ (latchConfig s).smQ r c = s.smQ r c
    else (latchConfig s).curQ r c = 0 ∧ (latchConfig s).smQ r c = 0 := by
  obtain ⟨hcur, hsm⟩ := latchConfig_cell s r c
  simp only [State.curQ, State.smQ, hcur, hsm, outsideOverlap_iff]
  split
  · rename_i hin
    simp [hin]
  · rename_i hout
    rw [if_pos ⟨hv, hne, hm, ⟨hr, hc⟩, hout⟩, if_pos ⟨hv, hne, hm, ⟨hr, hc⟩, hout⟩]
    exact ⟨rfl, rfl⟩

/-- Settles O16, by whether the request is valid, and then by what LATCHCFG does to each part of the state. -/
theorem latchcfgTakesValidGridsOnly : Obligations.LatchcfgTakesValidGridsOnly := by
  intro s hp
  refine ⟨fun hinvalid => ?invalid, fun hgrid => ?valid⟩
  case invalid =>
    have hraise : latchConfig s = raise .badGrid s := if_neg (mt of_decide_eq_true hinvalid)
    exact congrArg _ hraise
  case valid =>
    have hv : s.gridValid = true := decide_eq_true hgrid
    obtain ⟨hn, hm⟩ := toNat_latchConfig hp hv
    refine ⟨latchConfig s, rfl, ?frame, hn, hm, latchConfig_cells_of_single,
      fun hsameN hsameM => latchConfig_cells_of_kept (.inr ⟨hv, hsameN, hsameM⟩),
      fun hmode hne r c => latchConfig_resized hv hmode hne⟩
    rw [← latchConfig_err_of_valid hv]
    exact latchConfig_frame s

/-- A request that covers the active grid zeroes only cells outside the control region, which hold 0 (R23, R165). -/
theorem latchConfig_cell_of_growing {s : State} (hz : s.ZeroOutsideRegion) (hn : s.nAct.toNat ≤ s.gridN.toNat)
    (hm : s.mAct.toNat ≤ s.gridM.toNat) (r c : Nat) :
    (latchConfig s).curQ r c = s.curQ r c ∧ (latchConfig s).smQ r c = s.smQ r c := by
  obtain ⟨hcur, hsm⟩ := latchConfig_cell s r c
  simp only [State.curQ, State.smQ, hcur, hsm, outsideOverlap_iff]
  split
  · rename_i hzeroed
    obtain ⟨-, -, hmode, -, hout⟩ := hzeroed
    obtain ⟨hnc, hmc⟩ := State.nc_grid hmode
    have hreg : s.inRegion r c = false := by
      rw [← Bool.not_eq_true, State.inRegion_iff]
      omega
    obtain ⟨hcur0, hsm0⟩ := hz r c hreg
    exact ⟨hcur0.symm, hsm0.symm⟩
  · exact ⟨rfl, rfl⟩

/-- Settles O17. -/
theorem growingGridKeepsEveryCell : Obligations.GrowingGridKeepsEveryCell := by
  intro s hs hfill hv hn hm
  obtain ⟨hn', hm'⟩ := toNat_latchConfig hs.params hv
  exact ⟨latchConfig s, rfl, hn', hm', latchConfig_cell_of_growing (hs.canonicalZero hfill) hn hm⟩

end Sys2Proof.Machine
end

section
/-! SUPPORT. O45 and O58: once no tick can run, what the events but RESET still change (R163, R169). -/

namespace Sys2Proof.Machine

/-- Outside IDLE no START begins a run, and outside RUNNING or after a close request no TICK runs (R161, R163). -/
def NoMoreTicks (s : State) : Prop := s.st ≠ .idle ∧ (s.st ≠ .running ∨ s.closeReq = true)

/-- `t` has the cells, ST, the holds and TX of `s`. -/
structure KeepsRun (s t : State) : Prop where
  cells : t.cells = s.cells
  st : t.st = s.st
  srcHeld : t.srcHeld = s.srcHeld
  txHeld : t.txHeld = s.txHeld
  tx : t.tx = s.tx

theorem KeepsRun.refl (s : State) : KeepsRun s s := ⟨rfl, rfl, rfl, rfl, rfl⟩

theorem keepsRun_raise (f : ErrFlag) (s : State) : KeepsRun s (raise f s) := ⟨rfl, rfl, rfl, rfl, rfl⟩

theorem keepsRun_requestClose (s : State) : KeepsRun s (requestClose s) := ⟨rfl, rfl, rfl, rfl, rfl⟩

theorem NoMoreTicks.startBlock {s : State} (h : NoMoreTicks s) : KeepsRun s (startBlock s) :=
  startBlock_outside_idle h.1 ▸ keepsRun_raise .badCmd s

theorem NoMoreTicks.tickBlock {s : State} (h : NoMoreTicks s) : KeepsRun s (tickBlock s) :=
  (tickBlock_ignored h.2).symm ▸ .refl s

theorem NoMoreTicks.command {s : State} (h : NoMoreTicks s) (v : Word) : KeepsRun s (command v s) := by
  obtain ⟨-, e⟩ | ⟨-, e⟩ | ⟨-, e⟩ | ⟨-, e⟩ := command_cases v s <;> rw [e]
  · exact h.startBlock
  · exact h.tickBlock
  · exact keepsRun_requestClose s
  · exact keepsRun_raise .badCmd s

theorem WriteEffect.keepsRun {v : Word} {s t : State} (hw : WriteEffect v s t) (h : NoMoreTicks s) :
    KeepsRun s t := by
  cases hw with
  | command => exact h.command v
  | _ => exact ⟨rfl, rfl, rfl, rfl, rfl⟩

theorem keepsRun_writePixel (a : Nat) (b : Byte) (s : State) : KeepsRun s (writePixel a b s) := by
  obtain ⟨-, e⟩ | ⟨-, e⟩ := writePixel_cases a b s <;> rw [e]
  · exact ⟨rfl, rfl, rfl, rfl, rfl⟩
  · exact keepsRun_raise .badWr s

/-- When no tick can run any more, RESET and the block's own transitions are the only events that touch the run. -/
theorem exec_keepsRun {s t : State} {i : Instr} (h : NoMoreTicks s) (hi : i.isEvent = true)
    (hr : i ≠ .reset) (hc : i ≠ .tauClose) (hs : i ≠ .tauStop) (hx : exec i s = .next t) : KeepsRun s t := by
  cases i with
  | start => cases hx; exact h.startBlock
  | tick => cases hx; exact h.tickBlock
  | close => cases hx; exact keepsRun_requestClose s
  | rdreg n => cases hx; exact ⟨rfl, rfl, rfl, rfl, rfl⟩
  | wrreg n v => cases hx; exact (writeReg_cases (regOf n) v s).keepsRun h
  | wrfb a b => cases hx; exact keepsRun_writePixel a.toNat b s
  | reset => exact absurd rfl hr
  | tauClose => exact absurd rfl hc
  | tauStop => exact absurd rfl hs
  | _ => cases hi

/-- In STOPPED no internal transition is enabled, so every event but RESET keeps the run (R169). -/
theorem exec_keepsRun_of_stopped {s t : State} {i : Instr} (hst : s.st = .stopped) (hi : i.isEvent = true)
    (hr : i ≠ .reset) (hx : exec i s = .next t) : KeepsRun s t := by
  by_cases hc : i = .tauClose
  · subst hc
    cases hx
    rw [fireClose_of_disabled (by simp [hst])]
    exact .refl s
  · by_cases hs : i = .tauStop
    · subst hs
      cases hx
      rw [fireStop_of_disabled (by simp [hst])]
      exact .refl s
    · exact exec_keepsRun ⟨by simp [hst], .inl (by simp [hst])⟩ hi hr hc hs hx

/-- Settles O58. -/
theorem stoppedIsFinal : Obligations.StoppedIsFinal := by
  intro s t i hst hi hr hx
  have hk := exec_keepsRun_of_stopped hst hi hr hx
  exact ⟨hk.st.trans hst, hk.srcHeld, hk.txHeld, hk.tx⟩

/-- After a close request, and outside IDLE, TAU.STOP is the only event but RESET that touches a cell (R163, R168). -/
theorem exec_cells_of_closing {s t : State} {i : Instr} (h : s.closeReq = true) (hst : s.st ≠ .idle)
    (hi : i.isEvent = true) (hr : i ≠ .reset) (hs : i ≠ .tauStop) (hx : exec i s = .next t) : t.cells = s.cells := by
  by_cases hc : i = .tauClose
  · subst hc
    cases hx
    exact fireClose_cells s
  · exact (exec_keepsRun ⟨hst, .inr h⟩ hi hr hc hs hx).cells

/-- Settles O45. -/
theorem noTickRunsAfterClose : Obligations.NoTickRunsAfterClose := by
  intro s t i h hi hr hx
  have hcl := exec_closes h hi hr hx
  exact ⟨hcl.closeReq, hcl.tx, fun hst => ⟨mt hcl.idle hst, fun hs => exec_cells_of_closing h hst hi hr hs hx⟩⟩

end Sys2Proof.Machine
end

section
/-! SUPPORT. O57: the transitions of ST (R156). -/

namespace Sys2Proof.Machine

/-- The rows of the transition table that START takes (R161). -/
def StartsFrom (s t : State) : Prop :=
  (s.st = .idle ∧ s.pins.transportReady = true ∧ s.pins.sourceReady = true ∧ t.st = .running) ∨
  (s.st = .idle ∧ s.pins.transportReady = false ∧ t.st = .stopped)

theorem startBlock_st (s : State) : (startBlock s).st = s.st ∨ StartsFrom s (startBlock s) := by
  obtain ⟨-, h⟩ | ⟨hst, ht, h⟩ | ⟨-, -, -, h⟩ | ⟨hst, ht, hsrc, h⟩ := startBlock_cases s <;> rw [h]
  · exact .inl rfl
  · exact .inr (.inr ⟨hst, ht, rfl⟩)
  · exact .inl rfl
  · exact .inr (.inl ⟨hst, ht, hsrc, rfl⟩)

@[simp] theorem tickBlock_st (s : State) : (tickBlock s).st = s.st := by
  obtain ⟨-, h⟩ | ⟨-, -, -, h⟩ | ⟨-, -, -, -, h⟩ | ⟨-, -, -, -, h⟩ := tickBlock_cases s <;> simp [h]

/-- Of the commands START alone changes ST. -/
theorem command_st_of_ne_start {v : Word} (hv : v ≠ 1) (s : State) : (command v s).st = s.st := by
  obtain ⟨h, -⟩ | ⟨-, h⟩ | ⟨-, h⟩ | ⟨-, h⟩ := command_cases v s
  · exact absurd h hv
  · simp [h]
  · simp [h]
  · simp [h]

/-- A register other than CMD is no way to change ST (R158). -/
theorem writeReg_st {r : Reg} (hr : r ≠ .cmd) (v : Word) (s : State) : (writeReg r v s).st = s.st := by
  cases r with
  | cmd => exact absurd rfl hr
  | mode =>
    simp only [writeReg]
    split
    · split <;> rfl
    · rfl
  | glut i =>
    simp only [writeReg]
    split <;> rfl
  | _ => rfl

/-- A register write changes ST only as the command START (R35, R158). -/
theorem writeReg_regOf_st {n v : Word} (h : ¬(n = 0 ∧ v = 1)) (s : State) : (writeReg (regOf n) v s).st = s.st := by
  by_cases hn : n = 0
  · subst hn
    exact command_st_of_ne_start (fun hv => h ⟨rfl, hv⟩) s
  · exact writeReg_st (regOf_ne_cmd hn) v s

@[simp] theorem writePixel_st (a : Nat) (b : Byte) (s : State) : (writePixel a b s).st = s.st := by
  obtain ⟨-, h⟩ | ⟨-, h⟩ := writePixel_cases a b s <;> simp [h]

/-- TAU.CLOSE takes its row of the table or does nothing (R167; log 9). -/
theorem fireClose_st_cases (s : State) :
    (fireClose s).st = s.st ∨ (s.st = .running ∧ s.closeReq = true ∧ (fireClose s).st = .shutting) := by
  by_cases hen : s.st = .running ∧ s.closeReq = true ∧ s.busy = false
  · obtain ⟨hst, hc, hb⟩ := hen
    exact .inr ⟨hst, hc, by rw [fireClose_of_enabled hst hc hb]⟩
  · exact .inl (by rw [fireClose_of_disabled hen])

/-- TAU.STOP takes its row of the table or does nothing (R168; log 9). -/
theorem fireStop_st_cases (s : State) :
    (fireStop s).st = s.st ∨ (s.st = .shutting ∧ (fireStop s).st = .stopped) := by
  by_cases hst : s.st = .shutting
  · exact .inr ⟨hst, fireStop_st hst⟩
  · exact .inl (by rw [fireStop_of_disabled hst])

/-- START through the command port is START (R35). -/
theorem exec_of_start {i : Instr} (h : i = .start ∨ i = .wrreg 0 1) (s : State) :
    exec i s = .next (startBlock s) := by
  obtain rfl | rfl := h <;> rfl

/-- What changes ST other than a START: RESET, TAU.CLOSE and TAU.STOP, each by its row of the table (R156). -/
theorem exec_st_of_not_start {s t : State} {i : Instr} (hstart : ¬(i = .start ∨ i = .wrreg 0 1))
    (hx : exec i s = .next t) :
    t.st = s.st ∨ (i = .reset ∧ t.st = .idle) ∨
      (i = .tauClose ∧ s.st = .running ∧ s.closeReq = true ∧ t.st = .shutting) ∨
      (i = .tauStop ∧ s.st = .shutting ∧ t.st = .stopped) := by
  cases i with
  | start => exact absurd (.inl rfl) hstart
  | reset => cases hx; exact .inr (.inl ⟨rfl, rfl⟩)
  | tauClose => cases hx; exact (fireClose_st_cases s).imp_right fun h => .inr (.inl ⟨rfl, h⟩)
  | tauStop => cases hx; exact (fireStop_st_cases s).imp_right fun h => .inr (.inr ⟨rfl, h⟩)
  | tick => cases hx; exact .inl (tickBlock_st s)
  | wrreg n v =>
    cases hx
    exact .inl (writeReg_regOf_st (fun ⟨hn, hv⟩ => hstart (.inr (by rw [hn, hv]))) s)
  | wrfb a b => cases hx; exact .inl (writePixel_st a.toNat b s)
  | ctrl r c tgt =>
    rw [exec_ctrl s s.cells] at hx
    cases hx
    exact .inl rfl
  | _ => cases hx; simp

/-- Settles O57: a START through either port takes the rows of START, and each other operation its own. -/
theorem schedulerFollowsItsTransitionTable : Obligations.SchedulerFollowsItsTransitionTable := by
  intro s t i hx hne
  by_cases hstart : i = .start ∨ i = .wrreg 0 1
  · obtain rfl := Host.Outcome.next.inj ((exec_of_start hstart s).symm.trans hx)
    obtain hsame | ⟨hst, ht, hsrc, hrun⟩ | ⟨hst, ht, hstopped⟩ := startBlock_st s
    · exact absurd hsame.symm hne
    · exact .inr (.inl ⟨hstart, hst, ht, hsrc, hrun⟩)
    · exact .inr (.inr (.inl ⟨hstart, hst, ht, hstopped⟩))
  · obtain hsame | hreset | hclose | hstop := exec_st_of_not_start hstart hx
    · exact absurd hsame.symm hne
    · exact .inl hreset
    · exact .inr (.inr (.inr (.inl hclose)))
    · exact .inr (.inr (.inr (.inr hstop)))

end Sys2Proof.Machine
end

section
/-! SUPPORT. O11 and O54: RESET, element by element (R215), and when a step answers a next state (R221, R226). -/

namespace Sys2Proof.Machine

/-! ### RESET (R215) -/

/-- Every cell is 0 at power-on, those outside the control region among them (R56). -/
theorem resetOf_cells_zero (p : Params) (r c : Nat) : (State.resetOf p).curQ r c = 0 ∧ (State.resetOf p).smQ r c = 0 :=
  ⟨rfl, rfl⟩

theorem resetBlock_cells_zero (s : State) (r c : Nat) : (resetBlock s).curQ r c = 0 ∧ (resetBlock s).smQ r c = 0 := by
  simp only [State.curQ, State.smQ, resetBlock_cells]
  exact resetOf_cells_zero s.params r c

/-- At power-on no byte of FB is a written one: each is a free value (R50; log 8). -/
theorem resetOf_fb_unwritten (p : Params) (a : Nat) : (State.resetOf p).fb.read? a = none := rfl

/-- Settles O11: RESET leaves each register as `State.resetOf` gives it at power-on, and TX, the pins, the parameters
and the events to come as they were. -/
theorem resetEventRestoresEveryElement : Obligations.ResetEventRestoresEveryElement := by
  intro s
  refine ⟨resetBlock s, rfl, resetBlock_cells_zero s, ?_⟩
  simp only [resetBlock_fb, resetOf_fb_unwritten]
  simp [State.resetOf]

/-! ### Steps that answer (R221, R226) -/

/-- With nothing pending, the enabled transition answers, or the block is quiet (R170, R213). -/
theorem step_answers_of_nil {s : State} (hp : s.pending = []) : ∃ t, step s = .next t := by
  cases he : enabledTau s with
  | none => exact ⟨s, step_of_quiet hp he⟩
  | some i =>
    rw [step_of_enabledTau hp he]
    exact exec_answers i s

/-- A pending operation answers (R221). -/
theorem step_answers_of_operation {s : State} {rec : Record} {rest : List Record} {i : Instr}
    (hp : s.pending = rec :: rest) (hd : decode rec.bytes = .ok i) : ∃ t, step s = .next t := by
  rw [stepRunsTheNextEvent s rec rest i hp hd]
  exact exec_answers i (takeRecord rec rest s)

/-- Settles O54, by what is at the head of the events: nothing, an operation, or a reserved command word (R91). -/
theorem eventsNeverStopTheBlock : Obligations.EventsNeverStopTheBlock := by
  intro s hhead
  cases hp : s.pending with
  | nil => exact step_answers_of_nil hp
  | cons rec rest =>
    obtain ⟨i, hd⟩ | ⟨v, hd⟩ := hhead rec rest hp
    · exact step_answers_of_operation hp hd
    · exact ⟨_, step_of_reserved hp hd⟩

end Sys2Proof.Machine
end
